-- ==== Sys2Proof/Word.lean ====
section
/-! DEFINITION. The word types of the block (spec/00_scope.md R9): a byte has 8 bits, a coordinate 16; all values are unsigned. -/

namespace Sys2Proof

/-- A byte: bit 7 is the most significant, bit 0 the least (R9). -/
abbrev Byte := BitVec 8

/-- A coordinate of a contact record: 16 bits, unsigned (R29, R122). -/
abbrev Coord := BitVec 16

/-- The two stored header bytes as one unit, `hdr1 ++ hdr0` (R77). -/
abbrev HeaderPair := BitVec 16

end Sys2Proof
end

