-- ==== Sys2Proof/Config.lean ====
section
/-! DEFINITION. What the spec fixes for this hardware (spec/00_scope.md R6, R7) and what it leaves to an implementation (R8). -/

namespace Sys2Proof

/-- `PACKET_MAX_LENGTH`: the frame length in bytes and the buffer's capacity (R6). -/
def Config.packetMaxLength : Nat := 43

/-- `MAX_CONTACTS`: the contact slots of a frame, indices 0..5 (R6). -/
def Config.maxContacts : Nat := 6

/-- `HEADER_OFFSET`: the frame offset of contact slot 0 (R6). -/
def Config.headerOffset : Nat := 5

/-- `CONTACT_STRIDE`: the bytes of one contact slot (R6). -/
def Config.contactStride : Nat := 6

/-- `CONTACT_COUNT_OFFSET`: the frame offset of the reported contact count (R6). -/
def Config.contactCountOffset : Nat := 41

/-- `CHECKSUM_OFFSET`: the frame offset of the checksum byte; offsets below it are covered by the checksum (R6, R7). -/
def Config.checksumOffset : Nat := 42

/-- `HDR0`: the first header signature byte of RevisionA and RevisionB (R6, R63). -/
def Config.hdr0 : Byte := 0x02

/-- `HDR1`: the second header signature byte of RevisionA and RevisionB (R6, R63). -/
def Config.hdr1 : Byte := 0x05

/-- The header signature as the unit of `FRAME_CHECK`, `hdr1 ++ hdr0 = 0x0502` (R77, R98). -/
def Config.signature : HeaderPair := 0x0502

/-- `ST_TOGGLE_A`: the RevisionA status that toggles the pen (R6). -/
def Config.stToggleA : Byte := 0x02

/-- `ST_DOWN_B`: the RevisionB status that sets the pen down (R6). -/
def Config.stDownB : Byte := 0x03

/-- `ST_UP_B`: the RevisionB status that sets the pen up (R6). -/
def Config.stUpB : Byte := 0x00

/-- `ACTIVE_ID`: the `id` value that makes a contact slot eligible (R6, R67). -/
def Config.activeId : Byte := 0x00

/-- The four readings of the two bits of `CFG.variant` (spec/10_state.md R24). -/
inductive Variant where
  | legacy
  | revisionA
  | revisionB
  | reserved
deriving DecidableEq, Repr

/-- RevisionA and RevisionB are specified; Legacy and the reserved value are refused (R24, R73, R147). -/
def Variant.specified : Variant → Bool
  | .legacy => false
  | .revisionA => true
  | .revisionB => true
  | .reserved => false

/-- The parameters the source leaves to the implementation (R8): constants of one piece of hardware, which no operation
writes. `LINK_FLAGS_W` is no field: the flags are a list of bits of any length (R27). -/
structure Params where
  /-- `DATA_MASK`: ANDed onto every byte as it is stored. -/
  dataMask    : Byte
  /-- `CSUM_SEED`: the start value of both checksum accumulators. -/
  csumSeed    : Byte
  /-- `CSUM_REJECT_A`: a RevisionA checksum mismatch ends the decoding. -/
  csumRejectA : Bool
  /-- `CSUM_REJECT_B`: a RevisionB checksum mismatch ends the decoding. -/
  csumRejectB : Bool
deriving DecidableEq, Repr

/-- The defaults of R8, which are this hardware's values. -/
def Params.hardware : Params :=
  { dataMask := 0x7F, csumSeed := 0x00, csumRejectA := true, csumRejectB := false }

/-- The instantiations the spec permits (spec/92_eei_decisions.md section 2): `DATA_MASK` 0x7F or 0xFF, `CSUM_SEED` 0, either policy. -/
def Params.permitted (p : Params) : Bool :=
  (p.dataMask == 0x7F || p.dataMask == 0xFF) && p.csumSeed == 0x00

end Sys2Proof
end

