-- ==== Sys2Proof/Syntax.lean ====
section
/-! DEFINITION. The operations of the block, one constructor for each row of spec/opcode_table.json. Byte-level operations carry the
raw byte that executes them where the table leaves its value open; frame-level operations carry the operand their rule names. -/

namespace Sys2Proof

/-- The operations (spec/30_encoding.md R60, R68, R77). -/
inductive Instr where
  /-- `OVERFLOW` (R91): the overflow guard; the byte is dropped. -/
  | overflow (b : Byte)
  /-- `HDR0_ACCEPT` (R92): the byte is `HDR0`. -/
  | hdr0Accept
  /-- `HDR0_SKIP` (R93): any byte but `HDR0`. -/
  | hdr0Skip (b : Byte)
  /-- `HDR1_ACCEPT` (R94): the byte is `HDR1`. -/
  | hdr1Accept
  /-- `HDR1_RESYNC` (R95): any byte but `HDR1`. -/
  | hdr1Resync (b : Byte)
  /-- `APPEND` (R96): any byte. -/
  | append (b : Byte)
  /-- `APPEND_LAST` (R97): any byte, the frame's 43rd. -/
  | appendLast (b : Byte)
  /-- `FEED` (R90): the whole step for one delivered byte. -/
  | feed (b : Byte)
  /-- `FRAME_READY` (R98): `FRAME_CHECK` passes. -/
  | frameReady
  /-- `FRAME_DROP` (R98): `FRAME_CHECK` fails on these two stored bytes. -/
  | frameDrop (header : HeaderPair)
  /-- `LEN_GUARD` (R140): tests the length of the frame handed over. -/
  | lenGuard (frameLen : BitVec 6)
  /-- `CSUM_XOR` (R110): the RevisionA checksum. -/
  | csumXor
  /-- `CSUM_ADD` (R111): the RevisionB checksum. -/
  | csumAdd
  /-- `SELECT` (R120): contact selection. -/
  | select
  /-- `EXTRACT` (R122): field extraction from the selected slot. -/
  | extract (slot : Fin 6)
  /-- `PEN_TOGGLE_A` (R130). -/
  | penToggleA
  /-- `PEN_HOLD_A` (R131), for a status other than `ST_TOGGLE_A`. -/
  | penHoldA (status : Byte)
  /-- `PEN_DOWN_B` (R132). -/
  | penDownB
  /-- `PEN_UP_B` (R133). -/
  | penUpB
  /-- `PEN_HOLD_B` (R134), for a status that is neither `ST_DOWN_B` nor `ST_UP_B`. -/
  | penHoldB (status : Byte)
  /-- `EMIT` (R136): the event carries the extracted coordinates. -/
  | emit (x y : Coord)
  /-- `DECODE` (R141): the whole decoder, on the buffer and the length handed over with it. -/
  | decode (frameLen : BitVec 6)
  /-- `LEGACY_REFUSE` (R147). -/
  | legacyRefuse
  /-- `RESERVED_REFUSE` (R73). -/
  | reservedRefuse
deriving DecidableEq, Repr

/-- The name of an operation as spec/opcode_table.json spells it. -/
def Instr.mnemonic : Instr → String
  | .overflow _ => "OVERFLOW"
  | .hdr0Accept => "HDR0_ACCEPT"
  | .hdr0Skip _ => "HDR0_SKIP"
  | .hdr1Accept => "HDR1_ACCEPT"
  | .hdr1Resync _ => "HDR1_RESYNC"
  | .append _ => "APPEND"
  | .appendLast _ => "APPEND_LAST"
  | .feed _ => "FEED"
  | .frameReady => "FRAME_READY"
  | .frameDrop _ => "FRAME_DROP"
  | .lenGuard _ => "LEN_GUARD"
  | .csumXor => "CSUM_XOR"
  | .csumAdd => "CSUM_ADD"
  | .select => "SELECT"
  | .extract _ => "EXTRACT"
  | .penToggleA => "PEN_TOGGLE_A"
  | .penHoldA _ => "PEN_HOLD_A"
  | .penDownB => "PEN_DOWN_B"
  | .penUpB => "PEN_UP_B"
  | .penHoldB _ => "PEN_HOLD_B"
  | .emit _ _ => "EMIT"
  | .decode _ => "DECODE"
  | .legacyRefuse => "LEGACY_REFUSE"
  | .reservedRefuse => "RESERVED_REFUSE"

end Sys2Proof
end

