-- ==== Sys2Proof/WellFormed.lean ====
section
/-! DEFINITION. Which operations are well formed: the rows of spec/opcode_table.json marked `negate`, and `PEN_HOLD_B`, hold for every
value of their unit but the ones another row takes. -/

namespace Sys2Proof

/-- The operand of a row lies outside the patterns of the rows before it (spec/30_encoding.md R60, R66, R77). -/
def Instr.wellFormed : Instr → Bool
  | .overflow _ => true
  | .hdr0Accept => true
  | .hdr0Skip b => b != Config.hdr0
  | .hdr1Accept => true
  | .hdr1Resync b => b != Config.hdr1
  | .append _ => true
  | .appendLast _ => true
  | .feed _ => true
  | .frameReady => true
  | .frameDrop header => header != Config.signature
  | .lenGuard _ => true
  | .csumXor => true
  | .csumAdd => true
  | .select => true
  | .extract _ => true
  | .penToggleA => true
  | .penHoldA status => status != Config.stToggleA
  | .penDownB => true
  | .penUpB => true
  | .penHoldB status => status != Config.stDownB && status != Config.stUpB
  | .emit _ _ => true
  | .decode _ => true
  | .legacyRefuse => true
  | .reservedRefuse => true

end Sys2Proof
end

