-- ==== Sys2Proof/Decode.lean ====
section
/-! DEFINITION. The decoder: which operation a byte, a stored header, a status byte or a configuration selects (spec/30_encoding.md
R60, R66, R68, R77), the encoder written from the same tables, and the table itself. The bit-field and byte-order helpers stand here too. -/

namespace Sys2Proof

/-! ### Bit fields and byte order -/

/-- The reading of the two bits of `CFG.variant` (spec/10_state.md R24). -/
def variantOfBits (v : BitVec 2) : Variant :=
  if v = 0b01 then .revisionA
  else if v = 0b11 then .revisionB
  else if v = 0b00 then .legacy
  else .reserved

/-- The two bits of `CFG.variant` for a variant (R24). -/
def bitsOfVariant : Variant → BitVec 2
  | .legacy => 0b00
  | .revisionA => 0b01
  | .revisionB => 0b11
  | .reserved => 0b10

/-- The 3-bit register `CFG`: bits 1:0 are `variant`, bit 2 is `verbose` (R23). -/
def packCfg (variant : BitVec 2) (verbose : Bool) : BitVec 3 :=
  BitVec.ofBool verbose ++ variant

/-- `CFG.variant`, bits 1:0 (R23). -/
def cfgVariantBits (cfg : BitVec 3) : BitVec 2 := cfg.extractLsb' 0 2

/-- `CFG.verbose`, bit 2 (R23). -/
def cfgVerboseBit (cfg : BitVec 3) : Bool := cfg.getLsbD 2

/-- Two bytes as 16 bits, little-endian: the byte at the lower frame offset is the less significant (spec/20_memory.md R45). -/
def pairLE (lo hi : Byte) : BitVec 16 := hi ++ lo

/-- Byte `k` of a number laid out with its least significant byte first, as R61 lays a frame out in one 344-bit word. -/
def byteOfWord (w k : Nat) : Byte := BitVec.ofNat 8 (w / 256 ^ k)

/-! ### The decoder -/

/-- The state conditions that select a row beside its pattern (R77): `CFG.variant` and `fill_count`. -/
structure Context where
  variant   : BitVec 2
  fillCount : BitVec 6
deriving DecidableEq, Repr

/-- The byte-level operation map (R60). The comparisons are on all 8 bits of the raw byte, before masking. The refused
configurations come first, as in R90's pseudocode. -/
def decodeByte (c : Context) (b : Byte) : Instr :=
  match variantOfBits c.variant with
  | .legacy => .legacyRefuse
  | .reserved => .reservedRefuse
  | .revisionA | .revisionB =>
    if 43 ≤ c.fillCount.toNat then .overflow b
    else if c.fillCount.toNat = 0 then
      if b = Config.hdr0 then .hdr0Accept else .hdr0Skip b
    else if c.fillCount.toNat = 1 then
      if b = Config.hdr1 then .hdr1Accept else .hdr1Resync b
    else if c.fillCount.toNat ≤ 41 then .append b
    else .appendLast b

/-- `FRAME_CHECK`'s two rows, on the stored header bytes `hdr1 ++ hdr0` (R77, R98). -/
def decodeHeader (header : HeaderPair) : Instr :=
  if header = Config.signature then .frameReady else .frameDrop header

/-- Why nothing was decoded. -/
inductive DecodeError where
  /-- No byte has been delivered. -/
  | noByteDelivered
  /-- The unit is not the one this position of R68 reads. -/
  | wrongUnit
  /-- The configuration is a specified one: no `CFG` row refuses it. -/
  | configurationSpecified
  /-- Legacy and the reserved value select no frame-level operation (R147). -/
  | configurationRefused
deriving DecidableEq, Repr

/-- The pen-state operation a status byte selects, by `CFG.variant` (R66). All 8 stored bits are compared. -/
def decodePen (variant : Variant) (status : Byte) : Except DecodeError Instr :=
  match variant with
  | .revisionA => .ok (if status = Config.stToggleA then .penToggleA else .penHoldA status)
  | .revisionB =>
    .ok (if status = Config.stDownB then .penDownB else if status = Config.stUpB then .penUpB else .penHoldB status)
  | .legacy | .reserved => .error .configurationRefused

/-- The checksum operation `CFG.variant` selects (R68, order 3). -/
def decodeChecksum (variant : Variant) : Except DecodeError Instr :=
  match variant with
  | .revisionA => .ok .csumXor
  | .revisionB => .ok .csumAdd
  | .legacy | .reserved => .error .configurationRefused

/-- The two refusing rows (R73, R147). -/
def decodeConfig (variant : Variant) : Except DecodeError Instr :=
  match variant with
  | .legacy => .ok .legacyRefuse
  | .reserved => .ok .reservedRefuse
  | .revisionA | .revisionB => .error .configurationSpecified

/-- The byte decoder on a stream: one operation a byte, and the rest of the stream. It is total on any bytes (R60). -/
def decodeStream (c : Context) : List Byte → Except DecodeError (Instr × List Byte)
  | [] => .error .noByteDelivered
  | b :: rest => .ok (decodeByte c b, rest)

/-- Where in a step an operation is looked up: the configuration, the byte level, the positions of R68, and the two composites. -/
inductive Position where
  | config
  | byteStep
  | feed
  | frameCheck
  | decode
  | lenGuard
  | checksum
  | select
  | extract
  | pen
  | emit
deriving DecidableEq, Repr

/-- What a row is matched on or takes as its operand (R77). -/
inductive EncUnit where
  /-- `CFG.variant`. -/
  | cfg (v : BitVec 2)
  /-- The raw input byte. -/
  | byte (b : Byte)
  /-- The two stored header bytes, `hdr1 ++ hdr0`. -/
  | header (h : HeaderPair)
  /-- The length of the frame handed over. -/
  | length (n : BitVec 6)
  /-- The whole frame: the row has no pattern. -/
  | frame
  /-- The selected slot. -/
  | slot (i : Fin 6)
  /-- The status byte of the selected slot. -/
  | status (v : Byte)
  /-- The extracted coordinates. -/
  | point (x y : Coord)
deriving DecidableEq, Repr

/-- The operation a unit selects at a position (R60, R66, R68). A unit that the position does not read is rejected by name. -/
def decodeAt (p : Position) (c : Context) (u : EncUnit) : Except DecodeError Instr :=
  match p with
  | .config => match u with
    | .cfg v => decodeConfig (variantOfBits v)
    | _ => .error .wrongUnit
  | .byteStep => match u with
    | .byte b => .ok (decodeByte c b)
    | _ => .error .wrongUnit
  | .feed => match u with
    | .byte b => .ok (.feed b)
    | _ => .error .wrongUnit
  | .frameCheck => match u with
    | .header h => .ok (decodeHeader h)
    | _ => .error .wrongUnit
  | .decode => match u with
    | .length n => .ok (.decode n)
    | _ => .error .wrongUnit
  | .lenGuard => match u with
    | .length n => .ok (.lenGuard n)
    | _ => .error .wrongUnit
  | .checksum => match u with
    | .frame => decodeChecksum (variantOfBits c.variant)
    | _ => .error .wrongUnit
  | .select => match u with
    | .frame => .ok .select
    | _ => .error .wrongUnit
  | .extract => match u with
    | .slot i => .ok (.extract i)
    | _ => .error .wrongUnit
  | .pen => match u with
    | .status v => decodePen (variantOfBits c.variant) v
    | _ => .error .wrongUnit
  | .emit => match u with
    | .point x y => .ok (.emit x y)
    | _ => .error .wrongUnit

/-! ### The encoder -/

/-- The unit that an operation is encoded in (R77; spec/opcode_table.json). -/
def encode : Instr → EncUnit
  | .overflow b => .byte b
  | .hdr0Accept => .byte 0x02
  | .hdr0Skip b => .byte b
  | .hdr1Accept => .byte 0x05
  | .hdr1Resync b => .byte b
  | .append b => .byte b
  | .appendLast b => .byte b
  | .feed b => .byte b
  | .frameReady => .header 0x0502
  | .frameDrop h => .header h
  | .lenGuard n => .length n
  | .csumXor => .frame
  | .csumAdd => .frame
  | .select => .frame
  | .extract i => .slot i
  | .penToggleA => .status 0x02
  | .penHoldA v => .status v
  | .penDownB => .status 0x03
  | .penUpB => .status 0x00
  | .penHoldB v => .status v
  | .emit x y => .point x y
  | .decode n => .length n
  | .legacyRefuse => .cfg 0b00
  | .reservedRefuse => .cfg 0b10

/-- The position at which an operation is looked up (R60, R68). -/
def Instr.position : Instr → Position
  | .overflow _ => .byteStep
  | .hdr0Accept => .byteStep
  | .hdr0Skip _ => .byteStep
  | .hdr1Accept => .byteStep
  | .hdr1Resync _ => .byteStep
  | .append _ => .byteStep
  | .appendLast _ => .byteStep
  | .feed _ => .feed
  | .frameReady => .frameCheck
  | .frameDrop _ => .frameCheck
  | .lenGuard _ => .lenGuard
  | .csumXor => .checksum
  | .csumAdd => .checksum
  | .select => .select
  | .extract _ => .extract
  | .penToggleA => .pen
  | .penHoldA _ => .pen
  | .penDownB => .pen
  | .penUpB => .pen
  | .penHoldB _ => .pen
  | .emit _ _ => .emit
  | .decode _ => .decode
  | .legacyRefuse => .config
  | .reservedRefuse => .config

/-- The state condition of an operation's row: the `fill_count` range of a byte-level row and the variant of a `CREC` or checksum
row (R60, R66, R68). Byte-level rows also need a specified variant (R90). -/
def Instr.selectedIn (c : Context) : Instr → Bool
  | .overflow _ => (variantOfBits c.variant).specified && decide (43 ≤ c.fillCount.toNat)
  | .hdr0Accept => (variantOfBits c.variant).specified && decide (c.fillCount.toNat = 0)
  | .hdr0Skip _ => (variantOfBits c.variant).specified && decide (c.fillCount.toNat = 0)
  | .hdr1Accept => (variantOfBits c.variant).specified && decide (c.fillCount.toNat = 1)
  | .hdr1Resync _ => (variantOfBits c.variant).specified && decide (c.fillCount.toNat = 1)
  | .append _ => (variantOfBits c.variant).specified && decide (2 ≤ c.fillCount.toNat ∧ c.fillCount.toNat ≤ 41)
  | .appendLast _ => (variantOfBits c.variant).specified && decide (c.fillCount.toNat = 42)
  | .feed _ => true
  | .frameReady => true
  | .frameDrop _ => true
  | .lenGuard _ => true
  | .csumXor => variantOfBits c.variant == .revisionA
  | .csumAdd => variantOfBits c.variant == .revisionB
  | .select => true
  | .extract _ => true
  | .penToggleA => variantOfBits c.variant == .revisionA
  | .penHoldA _ => variantOfBits c.variant == .revisionA
  | .penDownB => variantOfBits c.variant == .revisionB
  | .penUpB => variantOfBits c.variant == .revisionB
  | .penHoldB _ => variantOfBits c.variant == .revisionB
  | .emit _ _ => true
  | .decode _ => true
  | .legacyRefuse => true
  | .reservedRefuse => true

/-! ### The table -/

/-- The formats of spec/opcode_table.json (R77). -/
inductive Format where
  | byte8
  | frame43
  | crec
  | cfg
deriving DecidableEq, Repr

/-- The format of an operation's row (R77; spec/opcode_table.json). DEDUCED (log 14): `EXTRACT` is `FRAME43`, as its row and R77's "`FRAME43`
for frame-level rows" have it, where R122's encoding line writes "`CREC` at `base`". -/
def Instr.format : Instr → Format
  | .overflow _ => .byte8
  | .hdr0Accept => .byte8
  | .hdr0Skip _ => .byte8
  | .hdr1Accept => .byte8
  | .hdr1Resync _ => .byte8
  | .append _ => .byte8
  | .appendLast _ => .byte8
  | .feed _ => .byte8
  | .frameReady => .frame43
  | .frameDrop _ => .frame43
  | .lenGuard _ => .frame43
  | .csumXor => .frame43
  | .csumAdd => .frame43
  | .select => .frame43
  | .extract _ => .frame43
  | .penToggleA => .crec
  | .penHoldA _ => .crec
  | .penDownB => .crec
  | .penUpB => .crec
  | .penHoldB _ => .crec
  | .emit _ _ => .frame43
  | .decode _ => .frame43
  | .legacyRefuse => .cfg
  | .reservedRefuse => .cfg

/-- The format whose rows are matched on a unit, or take it as their operand (R77). -/
def EncUnit.format : EncUnit → Format
  | .cfg _ => .cfg
  | .byte _ => .byte8
  | .header _ => .frame43
  | .length _ => .frame43
  | .frame => .frame43
  | .slot _ => .frame43
  | .status _ => .crec
  | .point _ _ => .frame43

/-- One row of spec/opcode_table.json as R77 describes it: it applies when the state condition holds and
`(unit & mask) == pattern`, or when the pattern does not match where `negate` is set. -/
structure Row where
  mnemonic : String
  format   : Format
  pattern  : BitVec 16
  mask     : BitVec 16
  negate   : Bool
  fillLow  : Nat
  fillHigh : Nat
  variant  : Option Variant
  rule     : Nat
deriving DecidableEq, Repr

/-- The rows matched on a raw byte, in the table's order. -/
def byteRows : List Row :=
  [ ⟨"OVERFLOW", .byte8, 0x00, 0x00, false, 43, 63, none, 91⟩,
    ⟨"HDR0_ACCEPT", .byte8, 0x02, 0xFF, false, 0, 0, none, 92⟩,
    ⟨"HDR0_SKIP", .byte8, 0x02, 0xFF, true, 0, 0, none, 93⟩,
    ⟨"HDR1_ACCEPT", .byte8, 0x05, 0xFF, false, 1, 1, none, 94⟩,
    ⟨"HDR1_RESYNC", .byte8, 0x05, 0xFF, true, 1, 1, none, 95⟩,
    ⟨"APPEND", .byte8, 0x00, 0x00, false, 2, 41, none, 96⟩,
    ⟨"APPEND_LAST", .byte8, 0x00, 0x00, false, 42, 42, none, 97⟩,
    ⟨"FEED", .byte8, 0x00, 0x00, false, 0, 63, none, 90⟩ ]

/-- The rows matched on the stored header, a status byte or the configuration, in the table's order. -/
def frameRows : List Row :=
  [ ⟨"FRAME_READY", .frame43, 0x0502, 0xFFFF, false, 0, 63, none, 98⟩,
    ⟨"FRAME_DROP", .frame43, 0x0502, 0xFFFF, true, 0, 63, none, 98⟩,
    ⟨"PEN_TOGGLE_A", .crec, 0x02, 0xFF, false, 0, 63, some .revisionA, 130⟩,
    ⟨"PEN_HOLD_A", .crec, 0x02, 0xFF, true, 0, 63, some .revisionA, 131⟩,
    ⟨"PEN_DOWN_B", .crec, 0x03, 0xFF, false, 0, 63, some .revisionB, 132⟩,
    ⟨"PEN_UP_B", .crec, 0x00, 0xFF, false, 0, 63, some .revisionB, 133⟩,
    ⟨"PEN_HOLD_B", .crec, 0x00, 0x00, false, 0, 63, some .revisionB, 134⟩,
    ⟨"LEGACY_REFUSE", .cfg, 0x0, 0x3, false, 0, 63, none, 147⟩,
    ⟨"RESERVED_REFUSE", .cfg, 0x2, 0x3, false, 0, 63, none, 73⟩ ]

/-- The patterned rows of spec/opcode_table.json. The rows left out (`LEN_GUARD`, `CSUM_XOR`, `CSUM_ADD`, `SELECT`, `EXTRACT`,
`EMIT`, `DECODE`) are selected by their order in R68: `decodeAt` holds them. The pattern of `SELECT`'s row, an `id` of 0, is what its
own scan compares (R67, R120). -/
def opcodeTable : List Row := byteRows ++ frameRows

/-- A row applies when its state condition and its pattern both hold (R77). -/
def Row.applies (r : Row) (f : Format) (c : Context) (unit : BitVec 16) : Bool :=
  r.format == f
    && decide (r.fillLow ≤ c.fillCount.toNat ∧ c.fillCount.toNat ≤ r.fillHigh)
    && (r.variant == none || r.variant == some (variantOfBits c.variant))
    && (((unit &&& r.mask) == r.pattern) != r.negate)

/-- The first row, in priority order, whose state condition and pattern both hold is the operation (R77). -/
def lookupTable (f : Format) (c : Context) (unit : BitVec 16) : Option String :=
  (opcodeTable.find? (fun r => r.applies f c unit)).map (·.mnemonic)

/-! ### The host's question -/

/-- The state conditions right after reset as this model's log fixes them: RevisionA, state 0. -/
def resetContext : Context := { variant := 0b01, fillCount := 0 }

/-- The operation that a unit of the table's bits selects. At most 8 bits are one raw byte, met in the state after reset (R60, R181).
More are the wire frame from offset 0 as one word (R61), bits above `nbits` zero: the header pair decides `FRAME_CHECK`'s row (R98). -/
def decodeTableWord (nbits w : Nat) : Option Instr :=
  if nbits = 0 then none
  else if nbits ≤ 8 then some (decodeByte resetContext (byteOfWord w 0))
  else if nbits ≤ 344 then some (decodeHeader (pairLE (byteOfWord w 0) (byteOfWord w 1)))
  else none

end Sys2Proof
end

