-- ==== Sys2Proof/Machine/State.lean ====
section
/-! DEFINITION. The state of one session (spec/10_state.md), the faults and refusals, and the state after reset (R34). -/

namespace Sys2Proof.Machine

/-- The buffer index space 0..42, one byte a cell (spec/20_memory.md R40): index and byte pairs, the indices strictly rising. A cell
that is not listed holds no value, which is what R34 and R188 give a cell until it is written. -/
abbrev Memory := List Host.Cell

/-- Why the machine stops with a fault. -/
inductive Fault where
  /-- Raised by every access to the buffer index space at an index above 42 (R40): no such cell exists. Safe: the model stops. -/
  | noSuchCell (index : Nat)
  /-- Raised by a read of a cell that holds no value (U6: "a read of an empty cell is a model fault"; R188: "fault on reading one").
  Safe: the model stops. -/
  | unwrittenCell (index : Nat)
deriving DecidableEq, Repr

/-- Why the model gives an operation no meaning. -/
inductive Refusal where
  /-- Raised by `exec` for an operation that has no meaning yet. Safe: the model stops. -/
  | notModelled (mnemonic : String)
  /-- Raised by every operation of a session configured as Legacy, and by `LEGACY_REFUSE` (R147). Safe: the spec refuses it. -/
  | legacySession
  /-- Raised by every operation of a session configured with the reserved value, and by `RESERVED_REFUSE` (R73). Safe: the spec
  refuses it. -/
  | reservedConfiguration
deriving DecidableEq, Repr

/-- What a step or an operation answers. -/
abbrev Answer (σ : Type) := Host.Outcome σ Fault Refusal

/-- The FrameOutcome of a step (R28). -/
inductive FrameOutcome where
  | incomplete
  | frameReady
  | resynced
  | overflow
deriving DecidableEq, Repr

/-- A TouchEvent (R29). -/
structure TouchEvent where
  x       : Coord
  y       : Coord
  penDown : Bool
deriving DecidableEq, Repr

/-- The two values that a checksum comparison is made on (R112). -/
structure ChecksumValues where
  computed : Byte
  stored   : Byte
deriving DecidableEq, Repr

/-- The abstract diagnostic record of one step (R30): a flag for each condition, the computed and the stored checksum where
ChecksumMismatch was raised (the spec's decision D18: in this record only, at no port), and the reported contact count. -/
structure Diag where
  headerMismatch   : Bool
  bufferOverrun    : Bool
  checksumMismatch : Bool
  noActiveContact  : Bool
  checksum         : Option ChecksumValues
  /-- `diag_count` where `diag_count_valid` is 1; it has no value where the cell reported holds none (U6; log 15). -/
  count            : Option (Option Byte)
deriving DecidableEq, Repr

/-- The record of a step that has raised nothing. -/
def Diag.clear : Diag :=
  { headerMismatch := false, bufferOverrun := false, checksumMismatch := false, noActiveContact := false,
    checksum := none, count := none }

/-- The registered outputs of the last clock edge (R25, R28 to R31): what the ports show until the next edge. An output that the spec
leaves unspecified is `none` (spec/93_implementation_defined.md U11). -/
structure StepOut where
  ack     : Bool
  outcome : Option FrameOutcome
  event   : Option TouchEvent
  diag    : Diag
deriving DecidableEq, Repr

/-- The outputs of an edge in which no step happened (R31, R34). -/
def StepOut.quiet : StepOut := { ack := false, outcome := none, event := none, diag := Diag.clear }

/-- The outputs as `FEED` begins: `diag <- {} ; event <- none ; ack <- handled` (R90). -/
def StepOut.begun : StepOut := { ack := true, outcome := none, event := none, diag := Diag.clear }

/-- The decoded view of the selected slot that `EXTRACT` gives (R122). -/
structure ContactRecord where
  status : Byte
  x      : Coord
  y      : Coord
deriving DecidableEq, Repr

/-- The input pins at one rising clock edge (R25). -/
structure Edge where
  rst        : Bool
  cfgVariant : BitVec 2
  cfgVerbose : Bool
  rxValid    : Bool
  rxData     : Byte
  /-- `rx_flags`, `LINK_FLAGS_W` bits: any number of them (R27). -/
  rxFlags    : List Bool
deriving DecidableEq, Repr

/-- An edge at which the environment drives nothing: no reset, no byte. -/
def Edge.quiet : Edge :=
  { rst := false, cfgVariant := 0b00, cfgVerbose := false, rxValid := false, rxData := 0x00, rxFlags := [] }

/-- An edge that delivers one byte with no link flag set. -/
def Edge.byte (b : Byte) : Edge := { Edge.quiet with rxValid := true, rxData := b }

/-- An edge with `rst` asserted: it creates a session (R180). -/
def Edge.create (variant : BitVec 2) (verbose : Bool) : Edge :=
  { Edge.quiet with rst := true, cfgVariant := variant, cfgVerbose := verbose }

/-- One session of the block (R12) with its environment. -/
structure State where
  /-- `buffer` (R20). -/
  buffer    : Memory
  /-- `fill_count`, 6 bits (R21). -/
  fillCount : BitVec 6
  /-- `pen_down`, 1 bit: true is pen down (R22). -/
  penDown   : Bool
  /-- `CFG`, 3 bits (R23). -/
  cfg       : BitVec 3
  /-- The registered output ports (R25). -/
  out       : StepOut
  /-- The parameters of R8, which no operation writes. -/
  params    : Params
  /-- The input pins at the clock edges still to come, the next one first (R26). -/
  inputs    : List Edge
deriving DecidableEq, Repr

/-! ### Updates, one field each -/

def State.setBuffer (s : State) (m : Memory) : State := { s with buffer := m }
def State.setFill (s : State) (n : BitVec 6) : State := { s with fillCount := n }
def State.setPen (s : State) (p : Bool) : State := { s with penDown := p }
def State.setCfg (s : State) (c : BitVec 3) : State := { s with cfg := c }
def State.setOut (s : State) (o : StepOut) : State := { s with out := o }
def State.setParams (s : State) (p : Params) : State := { s with params := p }
def State.setInputs (s : State) (es : List Edge) : State := { s with inputs := es }

/-- What one frame-level operation hands to the next within one step (R68: "each only if the one before did not end the decoding").
It is the result of a function and no part of `State`: the selected slot and the extracted record are values of one step (R32). -/
inductive Progress (α : Type) where
  /-- The decoding has ended here. -/
  | ended (s : State)
  /-- The decoding goes on with the value the operation gives. -/
  | going (a : α) (s : State)
deriving DecidableEq, Repr

/-- The state as an operation leaves it, its value of the step dropped. -/
def Progress.state {α : Type} : Progress α → State
  | .ended s => s
  | .going _ s => s

/-- The state right after session creation (R34, R180). DESIGN CHOICE (log 1): `cfg_variant` was RevisionA and `cfg_verbose` on;
the spec gives neither a default. The environment's edges are not yet given (log 3). -/
def State.reset : State :=
  { buffer := []
    fillCount := 0
    penDown := false
    cfg := packCfg 0b01 true
    out := StepOut.quiet
    params := Params.hardware
    inputs := [] }

end Sys2Proof.Machine
end

