-- ==== Sys2Proof/Machine/Ops.lean ====
section
/-! DEFINITION. The named operations over the buffer and the step's outputs: the primitives of spec/00_scope.md R10. -/

namespace Sys2Proof.Machine

/-! ### The buffer (spec/20_memory.md) -/

/-- The value a cell holds, if it holds one. -/
def readCell : Memory → Nat → Option Byte
  | [], _ => none
  | (a, b) :: rest, i => if a = i then some b else readCell rest i

/-- The buffer with a cell written; the indices stay strictly rising. -/
def writeCell : Memory → Nat → Byte → Memory
  | [], i, v => [(i, v)]
  | (a, b) :: rest, i, v =>
    if i < a then (i, v) :: (a, b) :: rest
    else if i = a then (i, v) :: rest
    else (a, b) :: writeCell rest i v

/-- The canonical form from an index on: the indices rise strictly from `low` and lie in the index space. -/
def memWfFrom : Nat → Memory → Bool
  | _, [] => true
  | low, (a, _) :: rest => decide (low ≤ a) && decide (a < 43) && memWfFrom (a + 1) rest

/-- The canonical form of the buffer: strictly rising indices in 0..42, and nothing listed for a cell that holds no value (R40). -/
def Memory.wf (m : Memory) : Bool := memWfFrom 0 m

/-- `MemRead(addr, 1)` (R10): a cell that does not exist or holds no value faults. -/
def memRead1 (s : State) (addr : Nat) : Except Fault Byte :=
  if addr < 43 then
    match readCell s.buffer addr with
    | some b => .ok b
    | none => .error (.unwrittenCell addr)
  else .error (.noSuchCell addr)

/-- `MemRead(addr, 2)` (R10, R45): two cells, little-endian. -/
def memRead2 (s : State) (addr : Nat) : Except Fault (BitVec 16) :=
  match memRead1 s addr with
  | .error f => .error f
  | .ok lo =>
    match memRead1 s (addr + 1) with
    | .error f => .error f
    | .ok hi => .ok (pairLE lo hi)

/-- `MemWrite(addr, 1, v)` (R10, R42): a cell that does not exist faults. -/
def memWrite1 (s : State) (addr : Nat) (v : Byte) : Answer State :=
  if addr < 43 then .next (s.setBuffer (writeCell s.buffer addr v)) else .fault (.noSuchCell addr)

/-- The stored value of a raw byte, `b & DATA_MASK` (R43; R76: "what the block stores is each byte ANDed with `DATA_MASK`"). -/
def storedByte (s : State) (b : Byte) : Byte := b &&& s.params.dataMask

/-! ### Sequencing -/

/-- Go on with the value read, or stop with the read's fault. -/
def withRead {α β : Type} (r : Except Fault α) (k : α → Answer β) : Answer β :=
  match r with
  | .ok a => k a
  | .error f => .fault f

/-- Go on from what was answered. -/
def andThen {α β : Type} (o : Answer α) (k : α → Answer β) : Answer β :=
  match o with
  | .next t => k t
  | .fault f => .fault f
  | .refused r => .refused r

/-- Go on with the operation's value unless the decoding has ended (R68). -/
def whileGoing {α β : Type} (o : Answer (Progress α)) (k : α → State → Answer (Progress β)) : Answer (Progress β) :=
  andThen o (fun p =>
    match p with
    | .ended s => .next (.ended s)
    | .going a s => k a s)

/-- What an operation leaves in the state; its value of the step is not kept (R32). -/
def stateOf {α : Type} (o : Answer (Progress α)) : Answer State := andThen o (fun p => .next p.state)

/-! ### The configuration -/

/-- `CFG.variant`, read as a variant (R24). -/
def State.variant (s : State) : Variant := variantOfBits (cfgVariantBits s.cfg)

/-- `CFG.verbose` (R23). -/
def State.verbose (s : State) : Bool := cfgVerboseBit s.cfg

/-- The state conditions the decoder reads (R60, R77). -/
def State.context (s : State) : Context := { variant := cfgVariantBits s.cfg, fillCount := s.fillCount }

/-- A session configured as Legacy or with the reserved value has no semantics: the refusal is total (R73, R90, R147). -/
def inSession {α : Type} (s : State) (k : Answer α) : Answer α :=
  match s.variant with
  | .revisionA => k
  | .revisionB => k
  | .legacy => .refused .legacySession
  | .reserved => .refused .reservedConfiguration

/-! ### The step's outputs (R28 to R31) -/

/-- `FEED` begins: `diag <- {} ; event <- none ; ack <- handled` (R90). -/
def beginStep (s : State) : State := s.setOut StepOut.begun

/-- `outcome <- v` (R10, R28). -/
def setOutcome (v : FrameOutcome) (s : State) : State := s.setOut { s.out with outcome := some v }

/-- `emit(x, y, p)` (R10, R29). -/
def emitEvent (x y : Coord) (s : State) : State :=
  s.setOut { s.out with event := some { x := x, y := y, penDown := s.penDown } }

/-- `diag_count <- c ; diag_count_valid <- 1` (R30, R141); `c` is none where the cell reported holds no value. -/
def reportCount (c : Option Byte) (s : State) : State := s.setOut { s.out with diag := { s.out.diag with count := some c } }

/-! ### Storing a byte -/

/-- The one write of a step: `MemWrite(index, 1, b & DATA_MASK)` and then `fill_count <- n` (R42, R43, R76). -/
def storeByte (index : Nat) (b : Byte) (n : BitVec 6) (s : State) : Answer State :=
  andThen (memWrite1 s index (storedByte s b)) (fun t => .next (t.setFill n))

end Sys2Proof.Machine
end

