-- ==== Sys2Proof/Machine/Flags.lean ====
section
/-! DEFINITION. The four conditions, their codes and flags (spec/60_exceptions.md R150 to R156), and how a condition is raised. -/

namespace Sys2Proof.Machine

/-- The conditions the block detects (R150). -/
inductive Condition where
  | headerMismatch
  | bufferOverrun
  | checksumMismatch
  | noActiveContact
deriving DecidableEq, Repr

/-- The code of a condition (R151); code 0 means no condition. -/
def Condition.code : Condition → Nat
  | .headerMismatch => 1
  | .bufferOverrun => 2
  | .checksumMismatch => 3
  | .noActiveContact => 4

/-- The `diag_flags` bit of a condition: its code minus one (R151). -/
def Condition.flagBit (c : Condition) : Nat := c.code - 1

/-- A diagnostic record with a condition's flag set. -/
def Diag.withFlag (d : Diag) : Condition → Diag
  | .headerMismatch => { d with headerMismatch := true }
  | .bufferOverrun => { d with bufferOverrun := true }
  | .checksumMismatch => { d with checksumMismatch := true }
  | .noActiveContact => { d with noActiveContact := true }

/-- Whether a record has a condition's flag set. -/
def Diag.flag (d : Diag) : Condition → Bool
  | .headerMismatch => d.headerMismatch
  | .bufferOverrun => d.bufferOverrun
  | .checksumMismatch => d.checksumMismatch
  | .noActiveContact => d.noActiveContact

/-- The four flags as the bits of `diag_flags`: bit 0 HeaderMismatch, 1 BufferOverrun, 2 ChecksumMismatch, 3 NoActiveContact (R30). -/
def Diag.flagBits (d : Diag) : BitVec 4 :=
  BitVec.ofBool d.noActiveContact ++ BitVec.ofBool d.checksumMismatch ++ BitVec.ofBool d.bufferOverrun
    ++ BitVec.ofBool d.headerMismatch

/-- `raise <Condition>`: sets the flag in the step's diagnostic record and nothing else (ChecksumMismatch is raised by `raiseMismatch`).
Nothing is saved, no mode changes and control goes nowhere; the operation that raises it says what else happens, and there is no return
(R10, R152, R154, R155). -/
def raise (c : Condition) (s : State) : State := s.setOut { s.out with diag := s.out.diag.withFlag c }

/-- Raise ChecksumMismatch: the flag, and in the abstract record the computed and the stored value (R112; the spec's decision D18). -/
def raiseMismatch (computed stored : Byte) (s : State) : State :=
  s.setOut { s.out with
    diag := { s.out.diag.withFlag .checksumMismatch with checksum := some { computed := computed, stored := stored } } }

/-- Whether a checksum mismatch ends the decoding under the session's variant (R113). -/
def checksumRejects (s : State) : Bool :=
  (s.variant == .revisionA && s.params.csumRejectA) || (s.variant == .revisionB && s.params.csumRejectB)

end Sys2Proof.Machine
end

