-- ==== Sys2Proof/Machine/Operands.lean ====
section
/-! DEFINITION. The operands of the frame-level operations: the fields of the 43-byte frame, read from the buffer
(spec/30_encoding.md R61 to R65). -/

namespace Sys2Proof.Machine

/-- `base = HEADER_OFFSET + 6*slot_index` (R62). -/
def slotBase (i : Fin 6) : Nat := Config.headerOffset + Config.contactStride * i.val

/-- `status = MemRead(base, 1)` (R64). -/
def statusField (s : State) (i : Fin 6) : Except Fault Byte := memRead1 s (slotBase i)

/-- `id = MemRead(base+1, 1)` (R64). -/
def idField (s : State) (i : Fin 6) : Except Fault Byte := memRead1 s (slotBase i + 1)

/-- `x = MemRead(base+2, 2)` (R64). -/
def xField (s : State) (i : Fin 6) : Except Fault Coord := memRead2 s (slotBase i + 2)

/-- `y = MemRead(base+4, 2)` (R64). -/
def yField (s : State) (i : Fin 6) : Except Fault Coord := memRead2 s (slotBase i + 4)

/-- `count`, cell 41, as it is (R64): it is only reported, and no rule's control flow depends on it (R30), so a cell that holds no value
is reported as having none (U6; log 15). -/
def countField (s : State) : Option Byte := readCell s.buffer Config.contactCountOffset

/-- `csum = MemRead(42, 1)` (R64). -/
def csumField (s : State) : Except Fault Byte := memRead1 s Config.checksumOffset

/-- The stored header `hdr1 ++ hdr0`, cells 0 and 1 (R63, R77). -/
def headerField (s : State) : Except Fault HeaderPair := memRead2 s 0

/-- The record of a slot, by "an explicit decode function reading fixed offsets with defined endianness" (R32, R122). -/
def recordOf (s : State) (i : Fin 6) : Except Fault ContactRecord :=
  match statusField s i with
  | .error f => .error f
  | .ok status =>
    match xField s i with
    | .error f => .error f
    | .ok x =>
      match yField s i with
      | .error f => .error f
      | .ok y => .ok { status := status, x := x, y := y }

/-- A fold over the named cells in order. -/
def foldCells (op : Byte → Byte → Byte) (s : State) : Byte → List Nat → Except Fault Byte
  | acc, [] => .ok acc
  | acc, k :: ks =>
    match memRead1 s k with
    | .error f => .error f
    | .ok b => foldCells op s (op acc b) ks

/-- The checksum over offsets 0..41 from `CSUM_SEED` (R65, R110, R111). -/
def frameChecksum (op : Byte → Byte → Byte) (s : State) : Except Fault Byte :=
  foldCells op s s.params.csumSeed (List.range Config.checksumOffset)

/-- The slots in scan order, 0..5 (R120). -/
def allSlots : List (Fin 6) := [0, 1, 2, 3, 4, 5]

/-- The first slot of the list whose `id` is `ACTIVE_ID`; later slots are not read (R70, R120). -/
def firstActive (s : State) : List (Fin 6) → Except Fault (Option (Fin 6))
  | [] => .ok none
  | i :: rest =>
    match idField s i with
    | .error f => .error f
    | .ok v => if v = Config.activeId then .ok (some i) else firstActive s rest

end Sys2Proof.Machine
end

