-- ==== Sys2Proof/Machine/Checksum.lean ====
section
/-! DEFINITION. The checksum validator: `CSUM_XOR`, `CSUM_ADD` (spec/41_checksum.md). -/

namespace Sys2Proof.Machine

/-- The comparison with the trailing byte, on all 8 bits, and the mismatch policy (R112, R113). -/
def settleChecksum (computed : Byte) (s : State) : Answer (Progress Unit) :=
  withRead (csumField s) (fun stored =>
    if computed = stored then .next (.going () s)
    else if checksumRejects s then .next (.ended (raiseMismatch computed stored s))
    else .next (.going () (raiseMismatch computed stored s)))

/-- A checksum operation: the fold of the 42 stored bytes at offsets 0..41, settled (R65). -/
def checksumBy (op : Byte → Byte → Byte) (s : State) : Answer (Progress Unit) :=
  inSession s (withRead (frameChecksum op s) (fun c => settleChecksum c s))

/-- The exclusive or of the 42 bytes, compared (R110). -/
def checksumXor (s : State) : Answer (Progress Unit) := checksumBy (fun c b => c ^^^ b) s

/-- The sum modulo 256 of the 42 bytes, compared (R111). -/
def checksumAdd (s : State) : Answer (Progress Unit) := checksumBy (fun c b => c + b) s

/-- `CSUM_XOR` (R110, R112, R113). -/
def execCsumXor (s : State) : Answer State := stateOf (checksumXor s)

/-- `CSUM_ADD` (R111, R112, R113). -/
def execCsumAdd (s : State) : Answer State := stateOf (checksumAdd s)

end Sys2Proof.Machine
end

