-- ==== Sys2Proof/Machine/Contact.lean ====
section
/-! DEFINITION. Contact selection and field extraction: `SELECT`, `EXTRACT` (spec/42_contact_extract.md). -/

namespace Sys2Proof.Machine

/-- The slot scan: `sel` is the first slot whose `id` is 0; with none, NoActiveContact is raised and the decoding ends (R120, R121). -/
def selectSlot (s : State) : Answer (Progress (Fin 6)) :=
  inSession s (withRead (firstActive s allSlots) (fun sel =>
    match sel with
    | some i => .next (.going i s)
    | none => .next (.ended (raise .noActiveContact s))))

/-- The field reads: `status`, `x` and `y` of a slot, for the operations after it (R122). -/
def extractRecord (slot : Fin 6) (s : State) : Answer (Progress ContactRecord) :=
  inSession s (withRead (recordOf s slot) (fun r => .next (.going r s)))

/-- `SELECT`: what it writes is the flag; `sel` is a value of the step (R32, R120, R121). -/
def execSelect (s : State) : Answer State := stateOf (selectSlot s)

/-- `EXTRACT`: it writes nothing; the record is a value of the step (R32, R122). -/
def execExtract (slot : Fin 6) (s : State) : Answer State := stateOf (extractRecord slot s)

end Sys2Proof.Machine
end

