-- ==== Sys2Proof/Machine/Pen.lean ====
section
/-! DEFINITION. The pen-state operations and the event: `PEN_TOGGLE_A`, `PEN_HOLD_A`, `PEN_DOWN_B`, `PEN_UP_B`, `PEN_HOLD_B`, `EMIT`
(spec/43_pen_state.md). -/

namespace Sys2Proof.Machine

/-- `PEN_TOGGLE_A`: `pen_down <- not pen_down` (R130). -/
def execPenToggleA (s : State) : Answer State := inSession s (.next (s.setPen (!s.penDown)))

/-- `PEN_HOLD_A`: nothing; `pen_down` is unchanged (R131). -/
def execPenHoldA (_status : Byte) (s : State) : Answer State := inSession s (.next s)

/-- `PEN_DOWN_B`: `if pen_down == 0: pen_down <- 1` (R132). -/
def execPenDownB (s : State) : Answer State :=
  inSession s (if s.penDown = false then .next (s.setPen true) else .next s)

/-- `PEN_UP_B`: `pen_down <- 0` (R133). -/
def execPenUpB (s : State) : Answer State := inSession s (.next (s.setPen false))

/-- `PEN_HOLD_B`: nothing; `pen_down` is unchanged (R134). -/
def execPenHoldB (_status : Byte) (s : State) : Answer State := inSession s (.next s)

/-- `EMIT`: the event carries the extracted coordinates and `pen_down` as the pen-state operation left it (R136). -/
def execEmit (x y : Coord) (s : State) : Answer State := inSession s (.next (emitEvent x y s))

/-- The one pen-state operation of a frame, selected by `CFG.variant` and the selected slot's `status` (R66). -/
def runPenOperation (status : Byte) (s : State) : Answer State :=
  match s.variant with
  | .revisionA => if status = Config.stToggleA then execPenToggleA s else execPenHoldA status s
  | .revisionB =>
    if status = Config.stDownB then execPenDownB s
    else if status = Config.stUpB then execPenUpB s
    else execPenHoldB status s
  | .legacy => .refused .legacySession
  | .reserved => .refused .reservedConfiguration

end Sys2Proof.Machine
end

