-- ==== Sys2Proof/Machine/FrameDecode.lean ====
section
/-! DEFINITION. The PayloadDecoder: `LEN_GUARD` and the composite `DECODE` (spec/43_pen_state.md R140, R141). -/

namespace Sys2Proof.Machine

/-- The length guard: a frame shorter than 2 bytes ends the decoding; no event, no condition (R140). -/
def lenGuard (frameLen : BitVec 6) (s : State) : Answer (Progress Unit) :=
  inSession s (.next (if frameLen.toNat < 2 then .ended s else .going () s))

/-- `LEN_GUARD`: it writes nothing (R140). -/
def execLenGuard (frameLen : BitVec 6) (s : State) : Answer State := stateOf (lenGuard frameLen s)

/-- The variant's checksum operation (R68, order 3). -/
def runChecksum (s : State) : Answer (Progress Unit) :=
  match s.variant with
  | .revisionA => checksumXor s
  | .revisionB => checksumAdd s
  | .legacy => .refused .legacySession
  | .reserved => .refused .reservedConfiguration

/-- The pen-state operation and `EMIT` on an extracted record (R68, orders 6 and 7). -/
def reportRecord (r : ContactRecord) (s : State) : Answer (Progress Unit) :=
  andThen (runPenOperation r.status s) (fun t => andThen (execEmit r.x r.y t) (fun u => .next (.going () u)))

/-- The operations of R68 in order, each only if the one before did not end the decoding. -/
def decodeSequence (frameLen : BitVec 6) (s : State) : Answer (Progress Unit) :=
  whileGoing (lenGuard frameLen s) (fun _ s1 =>
    whileGoing (runChecksum s1) (fun _ s2 =>
      whileGoing (selectSlot s2) (fun slot s3 =>
        whileGoing (extractRecord slot s3) reportRecord)))

/-- `DECODE`: the count is reported and the sequence runs on the buffer (R141). With `frame_len < 2` no cell has to hold a value: the
guard ends the decoding before the first read that needs one (R140). -/
def execDecode (frameLen : BitVec 6) (s : State) : Answer State :=
  inSession s (stateOf (decodeSequence frameLen (reportCount (countField s) s)))

end Sys2Proof.Machine
end

