-- ==== Sys2Proof/Machine/Assembler.lean ====
section
/-! DEFINITION. The FrameAssembler: the byte-level operations, `FRAME_CHECK`'s two rows and `FEED` (spec/40_frame_assembler.md). -/

namespace Sys2Proof.Machine

/-- `FRAME_READY`: `FRAME_CHECK` passes; the frame goes to `DECODE` with `frame_len = 43` (R98). -/
def execFrameReady (s : State) : Answer State :=
  inSession s (execDecode 43 (setOutcome .frameReady (s.setFill 0)))

/-- `FRAME_DROP`: `FRAME_CHECK` fails; the buffer is discarded by `fill_count <- 0`, no cell is cleared (R98, R52). -/
def execFrameDrop (_header : HeaderPair) (s : State) : Answer State :=
  inSession s (.next (setOutcome .resynced ((raise .headerMismatch s).setFill 0)))

/-- `FRAME_CHECK`: the two stored header bytes are compared (R98). -/
def frameCheck (s : State) : Answer State :=
  withRead (headerField s) (fun h => if h = Config.signature then execFrameReady s else execFrameDrop h s)

/-- `OVERFLOW`: the byte is dropped, `fill_count <- 0` (R91). -/
def execOverflow (_b : Byte) (s : State) : Answer State :=
  inSession s (.next (setOutcome .overflow ((raise .bufferOverrun (beginStep s)).setFill 0)))

/-- `HDR0_ACCEPT`: `buffer[0] <- b & DATA_MASK ; fill_count <- 1` (R92). -/
def execHdr0Accept (s : State) : Answer State :=
  inSession s (andThen (storeByte 0 Config.hdr0 1 (beginStep s)) (fun t => .next (setOutcome .incomplete t)))

/-- `HDR0_SKIP`: the byte is discarded (R93). -/
def execHdr0Skip (_b : Byte) (s : State) : Answer State :=
  inSession s (.next (setOutcome .incomplete (raise .headerMismatch (beginStep s))))

/-- `HDR1_ACCEPT`: `buffer[1] <- b & DATA_MASK ; fill_count <- 2` (R94). -/
def execHdr1Accept (s : State) : Answer State :=
  inSession s (andThen (storeByte 1 Config.hdr1 2 (beginStep s)) (fun t => .next (setOutcome .incomplete t)))

/-- `HDR1_RESYNC`: the accumulated byte and the incoming one are discarded (R95). -/
def execHdr1Resync (_b : Byte) (s : State) : Answer State :=
  inSession s (.next (setOutcome .resynced ((raise .headerMismatch (beginStep s)).setFill 0)))

/-- `APPEND`: `buffer[fill_count] <- b & DATA_MASK ; fill_count <- fill_count + 1` (R96). -/
def execAppend (b : Byte) (s : State) : Answer State :=
  inSession s (andThen (storeByte s.fillCount.toNat b (s.fillCount + 1) (beginStep s))
    (fun t => .next (setOutcome .incomplete t)))

/-- `APPEND_LAST`: `buffer[42] <- b & DATA_MASK ; fill_count <- 43 ; FRAME_CHECK` (R97). -/
def execAppendLast (b : Byte) (s : State) : Answer State :=
  inSession s (andThen (storeByte Config.checksumOffset b 43 (beginStep s)) frameCheck)

/-- `FEED`: the whole step for one delivered byte (R90). -/
def execFeed (b : Byte) (s : State) : Answer State :=
  inSession s (
    if 43 ≤ s.fillCount.toNat then execOverflow b s
    else if s.fillCount.toNat = 0 then (if b = Config.hdr0 then execHdr0Accept s else execHdr0Skip b s)
    else if s.fillCount.toNat = 1 then (if b = Config.hdr1 then execHdr1Accept s else execHdr1Resync b s)
    else if s.fillCount.toNat ≤ 41 then execAppend b s
    else execAppendLast b s)

end Sys2Proof.Machine
end

