-- ==== Sys2Proof/Machine/Refuse.lean ====
section
/-! DEFINITION. The two refusing rows: `LEGACY_REFUSE`, `RESERVED_REFUSE` (spec/44_legacy_variant.md R147, spec/30_encoding.md R73). -/

namespace Sys2Proof.Machine

/-- `LEGACY_REFUSE`: `refuse` (R147). -/
def execLegacyRefuse (_s : State) : Answer State := .refused .legacySession

/-- `RESERVED_REFUSE`: `refuse` (R73). -/
def execReservedRefuse (_s : State) : Answer State := .refused .reservedConfiguration

end Sys2Proof.Machine
end

