-- ==== Sys2Proof/Machine/Dispatch.lean ====
section
/-! DEFINITION. The meaning of every operation, one arm per constructor. -/

namespace Sys2Proof.Machine

def exec (i : Instr) (s : State) : Host.Outcome State Fault Refusal :=
  match i with
  | .overflow b => Sys2Proof.Machine.execOverflow b s
  | .hdr0Accept => Sys2Proof.Machine.execHdr0Accept s
  | .hdr0Skip b => Sys2Proof.Machine.execHdr0Skip b s
  | .hdr1Accept => Sys2Proof.Machine.execHdr1Accept s
  | .hdr1Resync b => Sys2Proof.Machine.execHdr1Resync b s
  | .append b => Sys2Proof.Machine.execAppend b s
  | .appendLast b => Sys2Proof.Machine.execAppendLast b s
  | .feed b => Sys2Proof.Machine.execFeed b s
  | .frameReady => Sys2Proof.Machine.execFrameReady s
  | .frameDrop header => Sys2Proof.Machine.execFrameDrop header s
  | .lenGuard frameLen => Sys2Proof.Machine.execLenGuard frameLen s
  | .csumXor => Sys2Proof.Machine.execCsumXor s
  | .csumAdd => Sys2Proof.Machine.execCsumAdd s
  | .select => Sys2Proof.Machine.execSelect s
  | .extract slot => Sys2Proof.Machine.execExtract slot s
  | .penToggleA => Sys2Proof.Machine.execPenToggleA s
  | .penHoldA status => Sys2Proof.Machine.execPenHoldA status s
  | .penDownB => Sys2Proof.Machine.execPenDownB s
  | .penUpB => Sys2Proof.Machine.execPenUpB s
  | .penHoldB status => Sys2Proof.Machine.execPenHoldB status s
  | .emit x y => Sys2Proof.Machine.execEmit x y s
  | .decode frameLen => Sys2Proof.Machine.execDecode frameLen s
  | .legacyRefuse => Sys2Proof.Machine.execLegacyRefuse s
  | .reservedRefuse => Sys2Proof.Machine.execReservedRefuse s

end Sys2Proof.Machine
end

