-- ==== Sys2Proof/Machine/Edges.lean ====
section
/-! DEFINITION. The clock edge and the ports (spec/10_state.md R25 to R31, spec/70_reset_and_hazards.md R180): what the pins ask for,
session creation, the idle edge, and what the output pins show. -/

namespace Sys2Proof.Machine

/-- What the pins ask for at an edge. -/
inductive EdgeAction where
  /-- `rst == 1`: session creation with the configuration on the pins. -/
  | create (variant : BitVec 2) (verbose : Bool)
  /-- `rx_valid == 1` and `rst == 0`: one step `FEED(rx_data)`. -/
  | deliver (b : Byte)
  /-- Neither: no step happens. -/
  | idle
deriving DecidableEq, Repr

/-- `rst` goes before `rx_valid`: a byte presented during reset is lost (R26, R180). The link flags are not read (R27). -/
def edgeAction (e : Edge) : EdgeAction :=
  if e.rst then .create e.cfgVariant e.cfgVerbose
  else if e.rxValid then .deliver e.rxData
  else .idle

/-- The pins at the next edge. With no edge given the environment drives nothing (R162). -/
def nextEdge (s : State) : Edge := s.inputs.headD Edge.quiet

/-- The state once the next edge's pins are taken. -/
def afterEdge (s : State) : State := s.setInputs s.inputs.tail

/-- Session creation (R34, R180): the buffer is left as it was. -/
def createSession (variant : BitVec 2) (verbose : Bool) (s : State) : State :=
  (((s.setFill 0).setPen false).setCfg (packCfg variant verbose)).setOut StepOut.quiet

/-- An edge with no step: no state changes, and the outputs of the last step end (R26, R31, R162, R200). -/
def idleEdge (s : State) : State := s.setOut StepOut.quiet

/-- The number of a FrameOutcome at the port (R28). -/
def outcomeBits : FrameOutcome → BitVec 2
  | .incomplete => 0
  | .frameReady => 1
  | .resynced => 2
  | .overflow => 3

/-- The output ports (R25). A port whose value the spec leaves unspecified shows `none`. -/
structure OutputPorts where
  rxAck          : Bool
  stepValid      : Bool
  outcome        : Option (BitVec 2)
  evtValid       : Bool
  evtX           : Option Coord
  evtY           : Option Coord
  evtPenDown     : Option Bool
  diagFlags      : BitVec 4
  diagCountValid : Bool
  diagCount      : Option Byte
deriving DecidableEq, Repr

/-- What the output pins show until the next edge: `diag_flags` and `diag_count_valid` are gated by `CFG.verbose` (R31). -/
def outputPorts (s : State) : OutputPorts :=
  { rxAck := s.out.ack
    stepValid := s.out.outcome.isSome
    outcome := s.out.outcome.map outcomeBits
    evtValid := s.out.event.isSome
    evtX := s.out.event.map TouchEvent.x
    evtY := s.out.event.map TouchEvent.y
    evtPenDown := s.out.event.map TouchEvent.penDown
    diagFlags := if s.verbose then s.out.diag.flagBits else 0
    diagCountValid := s.verbose && s.out.diag.count.isSome
    diagCount := if s.verbose then s.out.diag.count.join else none }

/-- The cells from `low` on that a frame word gives, `n` of them, bytes taken from the word at the same offsets (R61). -/
def cellsOfWord (w : Nat) : Nat → Nat → Memory
  | _, 0 => []
  | low, n + 1 => (low, byteOfWord w low) :: cellsOfWord w (low + 1) n

/-- The next edge delivers this byte; the edges after it stay. -/
def prependByte (b : Byte) (s : State) : State := s.setInputs (Edge.byte b :: s.inputs)

/-- A frame word laid out as the hardware holds it: offsets 0..41 stored, `fill_count` 42, and the byte of offset 42 delivered next,
so that the next step runs `FRAME_CHECK` on it (R97, R98). -/
def placeFrameWord (w : Nat) (s : State) : State :=
  prependByte (byteOfWord w 42) ((s.setBuffer (cellsOfWord w 0 42)).setFill 42)

/-- A unit of the table's bits laid where the next step meets it: one byte is delivered, more are a frame. -/
def placeTableWord (nbits w : Nat) (s : State) : State :=
  if nbits ≤ 8 then prependByte (byteOfWord w 0) s else placeFrameWord w s

end Sys2Proof.Machine
end

