-- ==== Sys2Proof/Machine/Step.lean ====
section
/-! DEFINITION. The machine's step: one rising clock edge (spec/00_scope.md R11, spec/70_reset_and_hazards.md R200). -/

namespace Sys2Proof.Machine

/-- One clock edge: session creation, the operation the delivered byte selects, or nothing (R26, R60, R90, R180). -/
def step (s : State) : Host.Outcome State Fault Refusal :=
  match edgeAction (nextEdge s) with
  | .create variant verbose => .next (createSession variant verbose (afterEdge s))
  | .deliver b => exec (decodeByte (afterEdge s).context b) (afterEdge s)
  | .idle => .next (idleEdge (afterEdge s))

/-- A unit of the table laid where the next step meets it. -/
def State.withFetchWord (s : State) (nbits w : Nat) : State := placeTableWord nbits w s

end Sys2Proof.Machine
end

