-- ==== Sys2Proof/Machine/FrameForm.lean ====
section
/-! DEFINITION. The frame pseudo-forms of spec/30_encoding.md R76: what a transmitter sends for `FRAME_A{...}` and `FRAME_B{...}`. What the
block stores of it is each byte ANDed with `DATA_MASK`: `storedByte` in Ops. -/

namespace Sys2Proof.Machine

/-- `s<i>=(status, id, x, y)`: one slot of a frame pseudo-form; an omitted slot is six zero bytes (R76). -/
structure SlotForm where
  status : Byte := 0x00
  id     : Byte := 0x00
  x      : Coord := 0
  y      : Coord := 0
deriving DecidableEq, Repr

/-- What stands between the braces of a frame pseudo-form, each part with its default (R76). -/
structure FrameForm where
  pad2  : Byte := 0x00
  pad3  : Byte := 0x00
  pad4  : Byte := 0x00
  s0    : SlotForm := {}
  s1    : SlotForm := {}
  s2    : SlotForm := {}
  s3    : SlotForm := {}
  s4    : SlotForm := {}
  s5    : SlotForm := {}
  count : Byte := 0x00
  /-- `csum=cc`: it overrides the computed checksum. -/
  csum  : Option Byte := none
deriving DecidableEq, Repr

/-- A slot's six bytes: `status`, `id`, `x & 0xFF`, `x >> 8`, `y & 0xFF`, `y >> 8` (R76). -/
def SlotForm.bytes (f : SlotForm) : List Byte :=
  [f.status, f.id, f.x.setWidth 8, (f.x >>> 8).setWidth 8, f.y.setWidth 8, (f.y >>> 8).setWidth 8]

/-- Offsets 0..41 of a frame pseudo-form: the header, `pad`, the six slots, `count` (R76). -/
def FrameForm.payload (f : FrameForm) : List Byte :=
  [0x02, 0x05, f.pad2, f.pad3, f.pad4] ++ f.s0.bytes ++ f.s1.bytes ++ f.s2.bytes ++ f.s3.bytes ++ f.s4.bytes ++ f.s5.bytes
    ++ [f.count]

/-- The 43 bytes of a frame pseudo-form: offset 42 is `csum` if given and otherwise the fold, from 0, of the 42 raw bytes before it. -/
def FrameForm.expandBy (op : Byte → Byte → Byte) (f : FrameForm) : List Byte :=
  f.payload ++ [f.csum.getD (f.payload.foldl op 0x00)]

/-- `FRAME_A{...}`: the checksum by exclusive or (R76). -/
def FrameForm.expandA (f : FrameForm) : List Byte := f.expandBy (fun c b => c ^^^ b)

/-- `FRAME_B{...}`: the checksum by addition modulo 256 (R76). -/
def FrameForm.expandB (f : FrameForm) : List Byte := f.expandBy (fun c b => c + b)

end Sys2Proof.Machine
end

