-- ==== Sys2Proof/Safety.lean ====
section
/-! DEFINITION. What the claims are stated in: sessions that the spec specifies, the invariants of spec/70_reset_and_hazards.md section 2,
runs of delivered bytes, and the decoder written a second time as one function of the 43 frame bytes (R135, R141). -/

namespace Sys2Proof.Machine

/-! ### Sessions and their invariants -/

/-- The session is configured as RevisionA or RevisionB (R24). -/
abbrev Specified (s : State) : Prop := s.variant.specified = true

/-- What holds at every step boundary of a session started by reset (R185, R187, R188, R189), beside the canonical form of the
buffer and the permitted parameters (R8). -/
structure Inv (s : State) : Prop where
  /-- The buffer is in its canonical form (R40). -/
  bufferWf  : s.buffer.wf = true
  /-- The parameters are ones the spec permits (R8). -/
  permitted : s.params.permitted = true
  /-- `fill_count` is in 0..42 (R185). -/
  fillLe    : s.fillCount.toNat ≤ 42
  /-- The first header cell (R187). -/
  headerLo  : 1 ≤ s.fillCount.toNat → readCell s.buffer 0 = some 0x02
  /-- The second header cell (R187). -/
  headerHi  : 2 ≤ s.fillCount.toNat → readCell s.buffer 1 = some 0x05
  /-- Every cell below `fill_count` holds a value (R188). -/
  written   : ∀ k, k < s.fillCount.toNat → (readCell s.buffer k).isSome = true
  /-- Every written cell is within `DATA_MASK` (R189). -/
  masked    : ∀ k v, readCell s.buffer k = some v → v &&& s.params.dataMask = v

/-- The 43 cells of the buffer hold the bytes of a frame. -/
abbrev HoldsFrame (s : State) (f : Nat → Byte) : Prop := ∀ k, k < 43 → readCell s.buffer k = some (f k)

/-- The first 42 cells of the buffer hold the first 42 bytes of a frame. -/
abbrev HoldsFrameBut (s : State) (f : Nat → Byte) : Prop := ∀ k, k < 42 → readCell s.buffer k = some (f k)

/-- What no byte-level operation but one that completes a frame changes: the pen, the configuration, the parameters, the edges to
come. -/
structure AssemblerFrame (s t : State) : Prop where
  penDown : t.penDown = s.penDown
  cfg     : t.cfg = s.cfg
  params  : t.params = s.params
  inputs  : t.inputs = s.inputs

/-- The registered outputs of a step that emits nothing. -/
def stepOutput (o : FrameOutcome) (d : Diag) : StepOut := { ack := true, outcome := some o, event := none, diag := d }

/-- The diagnostic record with one flag set. -/
def flagged (c : Condition) : Diag := Diag.clear.withFlag c

/-- The operations that run within `DECODE` and `DECODE` itself (R68). -/
def frameLevel : Instr → Bool
  | .overflow _ => false
  | .hdr0Accept => false
  | .hdr0Skip _ => false
  | .hdr1Accept => false
  | .hdr1Resync _ => false
  | .append _ => false
  | .appendLast _ => false
  | .feed _ => false
  | .frameReady => true
  | .frameDrop _ => true
  | .lenGuard _ => true
  | .csumXor => true
  | .csumAdd => true
  | .select => true
  | .extract _ => true
  | .penToggleA => true
  | .penHoldA _ => true
  | .penDownB => true
  | .penUpB => true
  | .penHoldB _ => true
  | .emit _ _ => true
  | .decode _ => true
  | .legacyRefuse => true
  | .reservedRefuse => true

/-! ### The decoder as one function of the frame -/

/-- The pen-state transition `p' = PEN(variant, status, p)` (R135). -/
def penTransition (v : Variant) (status : Byte) (p : Bool) : Bool :=
  match v with
  | .revisionA => if status = 0x02 then !p else p
  | .revisionB => if status = 0x03 then true else if status = 0x00 then false else p
  | .legacy => p
  | .reserved => p

/-- The exclusive or of frame bytes 0..41 from a seed (R110). -/
def xorOfFrame (seed : Byte) (f : Nat → Byte) : Byte := (List.range 42).foldl (fun c k => c ^^^ f k) seed

/-- The sum modulo 256 of frame bytes 0..41 from a seed (R111). -/
def sumOfFrame (seed : Byte) (f : Nat → Byte) : Byte := (List.range 42).foldl (fun c k => c + f k) seed

/-- What one run of `DECODE` decides. -/
structure Decoded where
  /-- The computed and the stored checksum where they differ. -/
  mismatch        : Option ChecksumValues
  noActiveContact : Bool
  event           : Option TouchEvent
  penDown         : Bool
deriving DecidableEq, Repr

/-- The pseudocode of R141 on the 43 frame bytes: `c` is the computed checksum and `reject` the variant's policy. -/
def decodeFrame (v : Variant) (c : Byte) (reject : Bool) (frameLen : Nat) (f : Nat → Byte) (p : Bool) : Decoded :=
  if frameLen < 2 then { mismatch := none, noActiveContact := false, event := none, penDown := p }
  else if c ≠ f 42 ∧ reject = true then
    { mismatch := some { computed := c, stored := f 42 }, noActiveContact := false, event := none, penDown := p }
  else
    let mismatch := if c = f 42 then none else some { computed := c, stored := f 42 }
    match [0, 1, 2, 3, 4, 5].find? (fun i => f (6 + 6 * i) == 0x00) with
    | none => { mismatch := mismatch, noActiveContact := true, event := none, penDown := p }
    | some i =>
      { mismatch := mismatch
        noActiveContact := false
        event := some { x := f (5 + 6 * i + 3) ++ f (5 + 6 * i + 2)
                        y := f (5 + 6 * i + 5) ++ f (5 + 6 * i + 4)
                        penDown := penTransition v (f (5 + 6 * i)) p }
        penDown := penTransition v (f (5 + 6 * i)) p }

/-- The decoder on a session's configuration, parameters and pen (R113, R141). -/
def decodeFor (s : State) (frameLen : Nat) (f : Nat → Byte) : Decoded :=
  match s.variant with
  | .revisionA => decodeFrame .revisionA (xorOfFrame s.params.csumSeed f) s.params.csumRejectA frameLen f s.penDown
  | .revisionB => decodeFrame .revisionB (sumOfFrame s.params.csumSeed f) s.params.csumRejectB frameLen f s.penDown
  | .legacy => { mismatch := none, noActiveContact := false, event := none, penDown := s.penDown }
  | .reserved => { mismatch := none, noActiveContact := false, event := none, penDown := s.penDown }

/-- A decision of `DECODE` put into a state: the pen, the event if there is one, the two flags raised, the checksum values recorded on a
mismatch, and the count. Nothing else changes. -/
def applyDecoded (d : Decoded) (count : Byte) (s : State) : State :=
  (s.setPen d.penDown).setOut
    { s.out with
      event := match d.event with
        | some e => some e
        | none => s.out.event
      diag := { s.out.diag with
        checksumMismatch := s.out.diag.checksumMismatch || d.mismatch.isSome
        noActiveContact := s.out.diag.noActiveContact || d.noActiveContact
        checksum := match d.mismatch with
          | some v => some v
          | none => s.out.diag.checksum
        count := some (some count) } }

/-! ### Runs of delivered bytes -/

/-- Deliver bytes one after the other, one step each, whatever edges were to come. -/
def feedAll : List Byte → State → Answer State
  | [], s => .next s
  | b :: bs, s => andThen (step (s.setInputs [Edge.byte b])) (feedAll bs)

/-- That many clock edges. -/
def runEdges : Nat → State → Answer State
  | 0, s => .next s
  | n + 1, s => andThen (step s) (runEdges n)

/-- `fill_count` after a step (R102). -/
def fillAfter (k : Nat) (b : Byte) : Nat :=
  if k = 0 then (if b = 0x02 then 1 else 0)
  else if k = 1 then (if b = 0x05 then 2 else 0)
  else if k ≤ 41 then k + 1
  else 0

/-- The hunting automaton (R101): 0 and 1 are the hunting states, 2 is accumulating and is not left. -/
def huntNext (k : Nat) (b : Byte) : Nat :=
  if k = 0 then (if b = 0x02 then 1 else 0)
  else if k = 1 then (if b = 0x05 then 2 else 0)
  else 2

/-- The hunting automaton on a sequence of bytes. -/
def hunt (k : Nat) (bs : List Byte) : Nat := bs.foldl huntNext k

/-- The session with `CFG.verbose` set otherwise. -/
def withVerbose (v : Bool) (s : State) : State := s.setCfg (packCfg (cfgVariantBits s.cfg) v)

/-- The answer with its next state changed. -/
def mapNext (g : State → State) (o : Answer State) : Answer State := andThen o (fun t => .next (g t))

end Sys2Proof.Machine
end

