-- ==== Sys2Proof/Certificates/Slice0/Obligations.lean ====
section
/-! DEFINITION. The statements for the provers. Each docstring names the rule or section of spec/ that it formalises. -/

open Sys2Proof Sys2Proof.Machine

/-! ### Byte-level operations -/

/-- OVERFLOW (40_frame_assembler.md section 2, the spec's decision D11): any byte in states 43..63 is dropped, `fill_count` becomes 0,
BufferOverrun alone is raised, and nothing else changes. -/
def Obligations.OverflowDropsTheByte : Prop :=
  ∀ (s : State) (b : Byte), Specified s → 43 ≤ s.fillCount.toNat →
    exec (.overflow b) s
      = .next ((s.setFill 0).setOut (stepOutput .overflow (flagged .bufferOverrun)))

/-- R92, HDR0_ACCEPT: in state 0 the raw byte 0x02 selects it; the byte is stored at index 0, where it is 0x02 for either mask, and
`fill_count` becomes 1; every other cell reads as before, no flag is raised, and the pen and the configuration are unchanged. -/
def Obligations.Hdr0AcceptStoresTheFirstHeaderByte : Prop :=
  ∀ s : State, Specified s → s.params.permitted = true → s.fillCount.toNat = 0 →
    decodeByte s.context 0x02 = .hdr0Accept ∧ ∃ t, exec .hdr0Accept s = .next t ∧ t.fillCount = 1 ∧ t.out = stepOutput .incomplete Diag.clear
      ∧ readCell t.buffer 0 = some 0x02 ∧ (∀ a, a ≠ 0 → readCell t.buffer a = readCell s.buffer a) ∧ AssemblerFrame s t

/-- HDR0_SKIP (40_frame_assembler.md section 2, the spec's decision D18 for the flag): in state 0 a byte that is not 0x02 is discarded;
no state changes, the outcome is Incomplete, HeaderMismatch alone is raised. -/
def Obligations.Hdr0SkipDiscardsTheByte : Prop :=
  ∀ (s : State) (b : Byte), Specified s → s.fillCount.toNat = 0 → b ≠ 0x02 →
    exec (.hdr0Skip b) s
      = .next (s.setOut (stepOutput .incomplete (flagged .headerMismatch)))

/-- R94, HDR1_ACCEPT: in state 1 the raw byte 0x05 selects it; the byte is stored at index 1, where it is 0x05 for either mask, and
`fill_count` becomes 2; every other cell reads as before, no flag is raised, and the pen and the configuration are unchanged. -/
def Obligations.Hdr1AcceptStoresTheSecondHeaderByte : Prop :=
  ∀ s : State, Specified s → s.params.permitted = true → s.fillCount.toNat = 1 →
    decodeByte s.context 0x05 = .hdr1Accept ∧ ∃ t, exec .hdr1Accept s = .next t ∧ t.fillCount = 2 ∧ t.out = stepOutput .incomplete Diag.clear
      ∧ readCell t.buffer 1 = some 0x05 ∧ (∀ a, a ≠ 1 → readCell t.buffer a = readCell s.buffer a) ∧ AssemblerFrame s t

/-- HDR1_RESYNC (40_frame_assembler.md section 2, the spec's decision D9 for the incoming byte): in state 1 a byte that is not 0x05
leaves `fill_count` 0, the outcome Resynced and HeaderMismatch raised; the byte is neither stored nor examined again. -/
def Obligations.Hdr1ResyncDiscardsBothBytes : Prop :=
  ∀ (s : State) (b : Byte), Specified s → s.fillCount.toNat = 1 → b ≠ 0x05 →
    exec (.hdr1Resync b) s
      = .next ((s.setFill 0).setOut (stepOutput .resynced (flagged .headerMismatch)))

/-- R96, APPEND: in states 2..41 any byte selects it and is stored masked at index `fill_count`, which is then incremented to at most
42; the outcome is Incomplete, no flag is raised, every other cell reads as before, and the pen and the configuration are unchanged. -/
def Obligations.AppendStoresTheMaskedByte : Prop :=
  ∀ (s : State) (b : Byte), Specified s → 2 ≤ s.fillCount.toNat → s.fillCount.toNat ≤ 41 →
    decodeByte s.context b = .append b ∧ ∃ t, exec (.append b) s = .next t
      ∧ t.fillCount.toNat = s.fillCount.toNat + 1 ∧ t.fillCount.toNat ≤ 42
      ∧ t.out = stepOutput .incomplete Diag.clear
      ∧ readCell t.buffer s.fillCount.toNat = some (b &&& s.params.dataMask)
      ∧ (∀ a, a ≠ s.fillCount.toNat → readCell t.buffer a = readCell s.buffer a) ∧ AssemblerFrame s t

/-- APPEND_LAST (40_frame_assembler.md section 2) on a frame whose stored header is right: the masked byte is stored at index 42, the
outcome is FrameReady, `fill_count` is 0, and the pen, the event and the diagnostic record are those of `DECODE` on the 43 cells with
`frame_len` 43 (43_pen_state.md section 5; the spec's decisions D14 to D17, log entry 12). The record's checksum values rest on the
spec's decision D18 (log entry 8). -/
def Obligations.AppendLastDeliversTheFrame : Prop :=
  ∀ (s : State) (b : Byte) (f g : Nat → Byte), Specified s → s.fillCount.toNat = 42 → HoldsFrameBut s f →
    f 0 = 0x02 → f 1 = 0x05 → (∀ k, k ≠ 42 → g k = f k) → g 42 = b &&& s.params.dataMask →
    ∃ t, exec (.appendLast b) s = .next t ∧ t.fillCount = 0 ∧ HoldsFrame t g
      ∧ (∀ a, a ≠ 42 → readCell t.buffer a = readCell s.buffer a)
      ∧ t.penDown = (decodeFor s 43 g).penDown
      ∧ t.out = { ack := true, outcome := some .frameReady, event := (decodeFor s 43 g).event,
                  diag := { headerMismatch := false, bufferOverrun := false,
                            checksumMismatch := (decodeFor s 43 g).mismatch.isSome,
                            noActiveContact := (decodeFor s 43 g).noActiveContact,
                            checksum := (decodeFor s 43 g).mismatch, count := some (some (f 41)) } }
      ∧ t.cfg = s.cfg ∧ t.params = s.params ∧ t.inputs = s.inputs

/-- APPEND_LAST (40_frame_assembler.md section 2) on a frame whose stored header is wrong: the masked byte is stored at index 42 and no cell
is cleared, the outcome is Resynced, `fill_count` is 0, HeaderMismatch alone is raised, and `DECODE` is not executed. -/
def Obligations.AppendLastDropsABadHeader : Prop :=
  ∀ (s : State) (b lo hi : Byte), Specified s → s.fillCount.toNat = 42 → readCell s.buffer 0 = some lo →
    readCell s.buffer 1 = some hi → (lo ≠ 0x02 ∨ hi ≠ 0x05) →
    ∃ t, exec (.appendLast b) s = .next t ∧ t.fillCount = 0
      ∧ t.out = stepOutput .resynced (flagged .headerMismatch)
      ∧ readCell t.buffer 42 = some (b &&& s.params.dataMask)
      ∧ (∀ a, a ≠ 42 → readCell t.buffer a = readCell s.buffer a) ∧ AssemblerFrame s t

/-- FRAME_READY (40_frame_assembler.md section 2, FRAME_CHECK passing): the outcome is FrameReady, `fill_count` becomes 0, and `DECODE`
runs on the 43 cells with `frame_len` 43 (43_pen_state.md section 5; the spec's decisions D14 to D17, log entry 12). The record's
checksum values rest on the spec's decision D18 (log entry 8). -/
def Obligations.FrameReadyRunsTheDecoder : Prop :=
  ∀ (s : State) (f : Nat → Byte), Specified s → HoldsFrame s f →
    exec .frameReady s
      = .next (applyDecoded (decodeFor s 43 f) (f 41)
          ((s.setFill 0).setOut { s.out with outcome := some .frameReady }))

/-- FRAME_DROP (40_frame_assembler.md section 2, FRAME_CHECK failing): HeaderMismatch is raised, `fill_count` becomes 0, the outcome is
Resynced; no cell is cleared and the pen is unchanged. -/
def Obligations.FrameDropOnlyRestartsTheHunt : Prop :=
  ∀ (s : State) (h : HeaderPair), Specified s → h ≠ 0x0502 →
    exec (.frameDrop h) s
      = .next ((s.setFill 0).setOut { s.out with outcome := some .resynced,
                                                 diag := { s.out.diag with headerMismatch := true } })

/-- FEED dispatches by `fill_count` and the raw byte exactly as the byte-level operation map does (40_frame_assembler.md section 1,
30_encoding.md section 1), in every state and for every configuration. -/
def Obligations.FeedExecutesTheDecodedOperation : Prop :=
  ∀ (s : State) (b : Byte), exec (.feed b) s = exec (decodeByte s.context b) s

/-- Every step of a session that meets the invariant completes, for every byte: the byte is acknowledged, the step has an outcome, and
`fill_count` moves as the transition table says (40_frame_assembler.md section 3). -/
def Obligations.FeedCompletesAndMovesFillCount : Prop :=
  ∀ (s : State) (b : Byte), Inv s → Specified s →
    ∃ t, exec (.feed b) s = .next t ∧ t.out.ack = true ∧ t.out.outcome.isSome = true
      ∧ t.fillCount.toNat = fillAfter s.fillCount.toNat b

/-- `fill_count` has no other next value in any state, reachable or not: whenever a step answers a next state, the transition table
holds, 43..63 going to 0 (40_frame_assembler.md section 3). -/
def Obligations.FillCountFollowsTheTable : Prop :=
  ∀ (s t : State) (b : Byte), exec (.feed b) s = .next t → t.fillCount.toNat = fillAfter s.fillCount.toNat b

/-! ### Frame-level operations -/

/-- LEN_GUARD (43_pen_state.md section 5, the spec's decision D16): a frame shorter than 2 ends the decoding, any other length lets it
go on; in both cases the state is as it was, with no event and no condition. -/
def Obligations.LenGuardEndsShortFrames : Prop :=
  ∀ (s : State) (n : BitVec 6), Specified s →
    (n.toNat < 2 → lenGuard n s = .next (.ended s)) ∧ (2 ≤ n.toNat → lenGuard n s = .next (.going () s))
      ∧ exec (.lenGuard n) s = .next s

/-- DECODE on its own with a frame shorter than 2 bytes: no event, no flag, no change of the pen, the stream position or the buffer;
only the count is reported (43_pen_state.md section 5, the spec's decision D16). In every session that is specified, whatever the buffer
holds: where cell 41 holds no value, so does the count (log entry 15). -/
def Obligations.ShortFrameDecodesToNothing : Prop :=
  ∀ (s : State) (n : BitVec 6), Specified s → n.toNat < 2 →
    exec (.decode n) s
      = .next (s.setOut { s.out with diag := { s.out.diag with count := some (readCell s.buffer 41) } })

/-- CSUM_XOR (41_checksum.md, the spec's decisions D14 and D15, log entry 12): the exclusive or of offsets 0..41 against offset 42; a
mismatch raises ChecksumMismatch and records both values (D18, log entry 8), and ends the decoding exactly where the variant's policy
rejects. Nothing else changes. -/
def Obligations.CsumXorComparesTheFold : Prop :=
  ∀ (s : State) (f : Nat → Byte), Specified s → HoldsFrame s f →
    (xorOfFrame s.params.csumSeed f = f 42 → checksumXor s = .next (.going () s) ∧ exec .csumXor s = .next s)
      ∧ ∀ t : State,
          t = s.setOut { s.out with
                diag := { s.out.diag with
                  checksumMismatch := true
                  checksum := some { computed := xorOfFrame s.params.csumSeed f, stored := f 42 } } } →
          xorOfFrame s.params.csumSeed f ≠ f 42 →
            checksumXor s = .next (if checksumRejects s = true then .ended t else .going () t) ∧ exec .csumXor s = .next t

/-- CSUM_ADD (41_checksum.md, the spec's decisions D14 and D15, log entry 12): the sum modulo 256 of offsets 0..41 against offset 42; a
mismatch raises ChecksumMismatch and records both values (D18, log entry 8), and ends the decoding exactly where the variant's policy
rejects. Nothing else changes. -/
def Obligations.CsumAddComparesTheSum : Prop :=
  ∀ (s : State) (f : Nat → Byte), Specified s → HoldsFrame s f →
    (sumOfFrame s.params.csumSeed f = f 42 → checksumAdd s = .next (.going () s) ∧ exec .csumAdd s = .next s)
      ∧ ∀ t : State,
          t = s.setOut { s.out with
                diag := { s.out.diag with
                  checksumMismatch := true
                  checksum := some { computed := sumOfFrame s.params.csumSeed f, stored := f 42 } } } →
          sumOfFrame s.params.csumSeed f ≠ f 42 →
            checksumAdd s = .next (if checksumRejects s = true then .ended t else .going () t) ∧ exec .csumAdd s = .next t

/-- The checksum round trip (41_checksum.md, derived there): a frame whose last byte is the checksum of the 42 before it raises nothing,
under either operation. -/
def Obligations.AppendedChecksumIsAccepted : Prop :=
  ∀ (s : State) (f : Nat → Byte), Specified s → s.params.permitted = true → HoldsFrame s f →
    (f 42 = sumOfFrame 0 f → exec .csumAdd s = .next s) ∧ (f 42 = xorOfFrame 0 f → exec .csumXor s = .next s)

/-- Exclusive or commutes with the mask (41_checksum.md, derived there): if the raw bytes satisfy the RevisionA checksum, so do the
stored ones. -/
def Obligations.XorChecksumSurvivesTheMask : Prop :=
  ∀ (s : State) (g : Nat → Byte), Specified s → s.params.permitted = true →
    HoldsFrame s (fun k => g k &&& s.params.dataMask) → g 42 = xorOfFrame 0 g → exec .csumXor s = .next s

/-- The additive checksum under the 7-bit mask (41_checksum.md, derived there): a sum of 0x80 or more is always reported as
ChecksumMismatch, both values recorded (the spec's decision D18, log entry 8), and with the default policy RevisionB goes on. -/
def Obligations.HighSumIsAlwaysFlagged : Prop :=
  ∀ (s : State) (f : Nat → Byte), s.variant = .revisionB → s.params.csumRejectB = false → HoldsFrame s f →
    f 42 &&& 0x7F = f 42 → 0x80 ≤ (sumOfFrame s.params.csumSeed f).toNat →
    ∃ t, checksumAdd s = .next (.going () t) ∧ exec .csumAdd s = .next t
      ∧ t = s.setOut { s.out with
              diag := { s.out.diag with
                checksumMismatch := true
                checksum := some { computed := sumOfFrame s.params.csumSeed f, stored := f 42 } } }

/-- SELECT (42_contact_extract.md): the first slot whose `id` is 0 is selected, whatever the later ones hold and whatever the count says;
nothing else changes. -/
def Obligations.SelectTakesTheFirstActiveSlot : Prop :=
  ∀ (s : State) (f : Nat → Byte) (i : Fin 6), Specified s → HoldsFrame s f →
    f (6 + 6 * i.val) = 0x00 → (∀ j : Fin 6, j < i → f (6 + 6 * j.val) ≠ 0x00) →
    selectSlot s = .next (.going i s) ∧ exec .select s = .next s

/-- SELECT (42_contact_extract.md) with no eligible slot: NoActiveContact is raised, the decoding ends, no slot is selected; the pen, the
event and the outcome are untouched. -/
def Obligations.SelectWithNoActiveSlotEndsDecoding : Prop :=
  ∀ (s : State) (f : Nat → Byte), Specified s → HoldsFrame s f → (∀ j : Fin 6, f (6 + 6 * j.val) ≠ 0x00) →
    ∃ t, selectSlot s = .next (.ended t) ∧ exec .select s = .next t
      ∧ t = s.setOut { s.out with diag := { s.out.diag with noActiveContact := true } }

/-- EXTRACT (42_contact_extract.md): with `base = 5 + 6*sel`, `status`, and `x` and `y` little-endian, for each of the six slots; nothing
else changes. -/
def Obligations.ExtractReadsTheSelectedSlot : Prop :=
  ∀ (s : State) (f : Nat → Byte) (i : Fin 6) (base : Nat), Specified s → HoldsFrame s f → base = 5 + 6 * i.val →
    extractRecord i s
        = .next (.going { status := f base, x := f (base + 3) ++ f (base + 2), y := f (base + 5) ++ f (base + 4) } s)
      ∧ exec (.extract i) s = .next s

/-- PEN_TOGGLE_A (43_pen_state.md section 1): under RevisionA status 0x02 selects it; `pen_down` is inverted and nothing else changes,
and the event that follows carries the inverted value. -/
def Obligations.PenToggleInvertsThePen : Prop :=
  ∀ s : State, s.variant = .revisionA →
    decodePen s.variant 0x02 = .ok .penToggleA ∧ exec .penToggleA s = .next (s.setPen (!s.penDown))
      ∧ ∀ x y : Coord, andThen (exec .penToggleA s) (exec (.emit x y))
          = .next ((s.setPen (!s.penDown)).setOut { s.out with event := some { x := x, y := y, penDown := !s.penDown } })

/-- PEN_HOLD_A (43_pen_state.md section 1, the spec's decision D17): under RevisionA a status other than 0x02 changes nothing. -/
def Obligations.PenHoldAKeepsThePen : Prop :=
  ∀ (s : State) (status : Byte), s.variant = .revisionA → status ≠ 0x02 → exec (.penHoldA status) s = .next s

/-- R132, R133, PEN_DOWN_B and PEN_UP_B: under RevisionB status 0x03 and status 0x00 select them; the pen is down, or up, afterwards
whatever it was, and nothing else changes. -/
def Obligations.PenDownAndUpSetThePen : Prop :=
  ∀ s : State, s.variant = .revisionB →
    decodePen s.variant 0x03 = .ok .penDownB ∧ decodePen s.variant 0x00 = .ok .penUpB
      ∧ exec .penDownB s = .next (s.setPen true) ∧ exec .penUpB s = .next (s.setPen false)

/-- R134, PEN_HOLD_B: under RevisionB a status that is neither 0x00 nor 0x03 selects it; it changes nothing, and the event that follows
carries the unchanged pen. -/
def Obligations.PenHoldBKeepsThePen : Prop :=
  ∀ (s : State) (status : Byte), s.variant = .revisionB → status ≠ 0x00 → status ≠ 0x03 →
    decodePen s.variant status = .ok (.penHoldB status) ∧ exec (.penHoldB status) s = .next s
      ∧ ∀ x y : Coord, andThen (exec (.penHoldB status) s) (exec (.emit x y))
          = .next (s.setOut { s.out with event := some { x := x, y := y, penDown := s.penDown } })

/-- The operation that a status byte selects does what the transition table says, for all 256 values, both variants and both pen
states (43_pen_state.md section 3, derived there). -/
def Obligations.PenOperationsFollowTheTable : Prop :=
  ∀ (s : State) (status : Byte) (i : Instr), decodePen s.variant status = .ok i →
    exec i s = .next (s.setPen (penTransition s.variant status s.penDown))

/-- EMIT (43_pen_state.md section 4): the event carries the coordinates and the pen as it is after the pen-state operation; nothing else
changes. -/
def Obligations.EmitReportsThePenAfterTheTransition : Prop :=
  ∀ (s : State) (x y : Coord), Specified s →
    exec (.emit x y) s = .next (s.setOut { s.out with event := some { x := x, y := y, penDown := s.penDown } })

/-- DECODE (43_pen_state.md section 5; the spec's decisions D14 to D18, log entries 8 and 12): on the 43 bytes of a frame the sequence of
operations decides what the pseudocode decides, for either variant, any parameters and any length handed over: the pen, the event, the
two flags, the checksum values of a mismatch and the count, and nothing else. -/
def Obligations.DecodeMeetsThePseudocode : Prop :=
  ∀ (s : State) (n : BitVec 6) (f : Nat → Byte), Specified s → HoldsFrame s f →
    exec (.decode n) s = .next (applyDecoded (decodeFor s n.toNat f) (f 41) s)

/-! ### Whole-step properties -/

/-- A step emits an event if and only if its outcome is FrameReady, the checksum policy did not end the decoding, and a slot was
selected (43_pen_state.md section 4, derived there); in every state. -/
def Obligations.EventExactlyWhenAFrameIsDecoded : Prop :=
  ∀ (s t : State) (b : Byte), exec (.feed b) s = .next t →
    (t.out.event.isSome = true ↔
      t.out.outcome = some .frameReady ∧ ¬ (t.out.diag.checksumMismatch = true ∧ checksumRejects s = true)
        ∧ t.out.diag.noActiveContact = false)

/-- The flag sets a step can have (60_exceptions.md section 2, derived there), in every state: at most one flag, or ChecksumMismatch
with NoActiveContact where the policy tolerates. -/
def Obligations.FlagSetsOfAStep : Prop :=
  ∀ (s t : State) (b : Byte), exec (.feed b) s = .next t →
    (t.out.diag.flagBits = 0b0000 ∨ t.out.diag.flagBits = 0b0001 ∨ t.out.diag.flagBits = 0b0010
      ∨ t.out.diag.flagBits = 0b0100 ∨ t.out.diag.flagBits = 0b1000
      ∨ (t.out.diag.flagBits = 0b1100 ∧ checksumRejects s = false))

/-- Only the three pen-state operations and the composites that run them change the pen, and a step without an event leaves it; an
event carries the pen the step leaves (43_pen_state.md section 5, derived there). -/
def Obligations.PenChangesOnlyWithAnEvent : Prop :=
  (∀ (s t : State) (b : Byte), exec (.feed b) s = .next t →
      (t.out.event = none → t.penDown = s.penDown) ∧ (∀ e, t.out.event = some e → e.penDown = t.penDown))
    ∧ (∀ (i : Instr) (s t : State), exec i s = .next t → t.penDown ≠ s.penDown →
        i = .penToggleA ∨ i = .penDownB ∨ i = .penUpB ∨ i = .frameReady ∨ (∃ n, i = .decode n)
          ∨ (∃ b, i = .appendLast b) ∨ (∃ b, i = .feed b))

/-- With the 7-bit mask, bits 15 and 7 of a reported coordinate are always 0 and it is at most 0x7F7F (20_memory.md section 4, derived
there). -/
def Obligations.CoordinatesHaveFourteenBits : Prop :=
  ∀ (s t : State) (b : Byte) (e : TouchEvent), Inv s → s.params.dataMask = 0x7F → exec (.feed b) s = .next t →
    t.out.event = some e →
    e.x.getLsbD 7 = false ∧ e.x.getLsbD 15 = false ∧ e.y.getLsbD 7 = false ∧ e.y.getLsbD 15 = false
      ∧ e.x.toNat ≤ 0x7F7F ∧ e.y.toNat ≤ 0x7F7F

/-- R42: a step writes at most one cell, the one at `fill_count` as the step begins, which is below 43, and it then holds the masked
byte; and no operation but the four storing ones (and FEED, which runs them) writes the buffer. In every state. -/
def Obligations.OneCellIsWrittenPerStep : Prop :=
  (∀ (s t : State) (b : Byte), exec (.feed b) s = .next t →
      (∀ a, a ≠ s.fillCount.toNat → readCell t.buffer a = readCell s.buffer a)
        ∧ (readCell t.buffer s.fillCount.toNat = readCell s.buffer s.fillCount.toNat
            ∨ (readCell t.buffer s.fillCount.toNat = some (b &&& s.params.dataMask) ∧ s.fillCount.toNat < 43)))
    ∧ (∀ (i : Instr) (s t : State), exec i s = .next t → t.buffer ≠ s.buffer →
        i = .hdr0Accept ∨ i = .hdr1Accept ∨ (∃ b, i = .append b) ∨ (∃ b, i = .appendLast b) ∨ (∃ b, i = .feed b))

/-- R155: no condition is fatal. After a step that raised any flag `fill_count` is 0, so the next byte is examined as a possible `HDR0`;
in every state. -/
def Obligations.EveryConditionReturnsToTheHunt : Prop :=
  ∀ (s t : State) (b : Byte), exec (.feed b) s = .next t → t.out.diag.flagBits ≠ 0 →
    t.fillCount = 0 ∧ decodeByte t.context 0x02 = .hdr0Accept ∧ ∀ c, c ≠ 0x02 → decodeByte t.context c = .hdr0Skip c

/-- The frame of the frame-level operations (20_memory.md section 2): the decoder writes no cell, and none of them moves `fill_count`
but `FRAME_READY` and `FRAME_DROP`, which set it to 0. -/
def Obligations.FrameLevelOperationsWriteNoCell : Prop :=
  ∀ (i : Instr) (s t : State), frameLevel i = true → exec i s = .next t →
    t.buffer = s.buffer
      ∧ (t.fillCount = s.fillCount ∨ (t.fillCount = 0 ∧ (i = .frameReady ∨ ∃ h, i = .frameDrop h)))

/-- No operation writes `CFG` (10_state.md section 3), the parameters or the edges to come, and every operation keeps the canonical form
of the buffer; in every state. -/
def Obligations.ConfigurationIsImmutable : Prop :=
  ∀ (i : Instr) (s t : State), exec i s = .next t →
    t.cfg = s.cfg ∧ t.params = s.params ∧ t.inputs = s.inputs ∧ (s.buffer.wf = true → t.buffer.wf = true)

/-- A session configured as Legacy or with the reserved value has no semantics (44_legacy_variant.md, the spec's decision D6): every
operation but the other refusing row refuses, and so does every step that delivers a byte. -/
def Obligations.RefusedSessionsRefuseEveryOperation : Prop :=
  (∀ (i : Instr) (s : State), s.variant = .legacy → i ≠ .reservedRefuse → exec i s = .refused .legacySession)
    ∧ (∀ (i : Instr) (s : State), s.variant = .reserved → i ≠ .legacyRefuse → exec i s = .refused .reservedConfiguration)
    ∧ (∀ (s : State) (b : Byte), edgeAction (nextEdge s) = .deliver b → s.variant = .legacy →
        step s = .refused .legacySession)
    ∧ (∀ (s : State) (b : Byte), edgeAction (nextEdge s) = .deliver b → s.variant = .reserved →
        step s = .refused .reservedConfiguration)

/-- LEGACY_REFUSE and RESERVED_REFUSE refuse in every state (44_legacy_variant.md and 30_encoding.md section 4, the spec's decision D6). -/
def Obligations.RefusingRowsRefuse : Prop :=
  ∀ s : State, exec .legacyRefuse s = .refused .legacySession ∧ exec .reservedRefuse s = .refused .reservedConfiguration

/-! ### The clock edge -/

/-- A step runs the decoded operation: at an edge that delivers a byte (`rx_valid` 1, `rst` 0), the step is the operation that the byte
selects in the session's context, executed with that edge taken off the input (40_frame_assembler.md section 1). -/
def Obligations.StepRunsTheDecodedOperation : Prop :=
  ∀ (s : State) (e : Edge) (es : List Edge), s.inputs = e :: es → e.rst = false → e.rxValid = true →
    step s = exec (decodeByte { variant := cfgVariantBits s.cfg, fillCount := s.fillCount } e.rxData) (s.setInputs es)

/-- Session creation (70_reset_and_hazards.md section 1, the spec's decisions D3, D4 and D5): at an edge with `rst` the configuration is
latched, `verbose` in bit 2 and `variant` in bits 1:0, `fill_count` and the pen are cleared, the buffer is left as it was, the valid and
flag outputs are 0, and a byte presented is lost; from every state, also in mid-session. -/
def Obligations.ResetEdgeCreatesASession : Prop :=
  ∀ (s : State) (e : Edge) (es : List Edge), s.inputs = e :: es → e.rst = true →
    ∃ t, step s = .next t ∧ t.fillCount = 0 ∧ t.penDown = false
      ∧ t.cfg = BitVec.ofBool e.cfgVerbose ++ e.cfgVariant ∧ cfgVariantBits t.cfg = e.cfgVariant ∧ t.verbose = e.cfgVerbose
      ∧ t.buffer = s.buffer ∧ t.params = s.params ∧ t.inputs = es
      ∧ (outputPorts t).stepValid = false ∧ (outputPorts t).rxAck = false ∧ (outputPorts t).evtValid = false
      ∧ (outputPorts t).diagFlags = 0 ∧ (outputPorts t).diagCountValid = false

/-- Idle (60_exceptions.md section 7): while no byte is delivered (and no reset comes) the block keeps all state, for any number of edges,
whatever else is on the pins and whatever comes after them: that many edges are taken off the input and no more, so a frame attempt goes
on where it stood when bytes resume. That the outputs of the last step have then ended rests on 10_state.md section 4 and
70_reset_and_hazards.md section 4 (the spec's decision D24; log entries 6 and 9), and that edges past those given are idle is this
model's choice (log entry 3). -/
def Obligations.IdleEdgesKeepAllState : Prop :=
  ∀ (s : State) (n : Nat), (∀ e ∈ s.inputs.take (n + 1), e.rst = false ∧ e.rxValid = false) →
    ∃ t, runEdges (n + 1) s = .next t ∧ t.buffer = s.buffer ∧ t.fillCount = s.fillCount
      ∧ t.penDown = s.penDown ∧ t.cfg = s.cfg ∧ t.params = s.params ∧ t.out = StepOut.quiet
      ∧ t.inputs = s.inputs.drop (n + 1)

/-- The state after reset, as the spec decides it (10_state.md section 6, decision D4): state 0, pen up, no cell holds a value, the valid
and flag outputs are 0; and the parameters have this hardware's values (00_scope.md section 4; decisions D7, D14 and D15; that they stand
in the state is log entry 5). The configuration is left out: it is the pins' (this model's choice of it is log entry 1). -/
def Obligations.ResetStateIsAsDecided : Prop :=
  State.reset.fillCount = 0 ∧ State.reset.penDown = false ∧ (∀ k, readCell State.reset.buffer k = none)
    ∧ (outputPorts State.reset).stepValid = false ∧ (outputPorts State.reset).rxAck = false
    ∧ (outputPorts State.reset).evtValid = false ∧ (outputPorts State.reset).diagFlags = 0
    ∧ (outputPorts State.reset).diagCountValid = false
    ∧ State.reset.params.dataMask = 0x7F ∧ State.reset.params.csumSeed = 0x00
    ∧ State.reset.params.csumRejectA = true ∧ State.reset.params.csumRejectB = false

/-- The link status flags are read by no rule (10_state.md section 4, decision D13): the step is the same whatever they say. -/
def Obligations.LinkFlagsAreNotRead : Prop :=
  ∀ (s : State) (e : Edge) (es : List Edge) (flags : List Bool),
    step (s.setInputs ({ e with rxFlags := flags } :: es)) = step (s.setInputs (e :: es))

/-- Nothing but the buffer, the position, the pen and the configuration reaches the next step (10_state.md section 5): the outputs that
an earlier step left, the event and the diagnostic record among them, have no effect on it. -/
def Obligations.NothingElseSurvivesAStep : Prop :=
  ∀ (s : State) (o : StepOut), step (s.setOut o) = step s

/-- `CFG.verbose` gates the diagnostic port and nothing else (10_state.md section 4, decision D19): the step commutes with changing it,
the diagnostic port is all zero without it and shows the record with it, and the other ports do not depend on it. -/
def Obligations.VerboseGatesOnlyTheDiagnosticPort : Prop :=
  (∀ (s : State) (v : Bool), (nextEdge s).rst = false → step (withVerbose v s) = mapNext (withVerbose v) (step s))
    ∧ (∀ s : State, (outputPorts (withVerbose false s)).diagFlags = 0
        ∧ (outputPorts (withVerbose false s)).diagCountValid = false
        ∧ (outputPorts (withVerbose true s)).diagFlags = s.out.diag.flagBits
        ∧ (outputPorts (withVerbose true s)).diagCountValid = s.out.diag.count.isSome
        ∧ (outputPorts (withVerbose true s)).diagCount = s.out.diag.count.join)
    ∧ (∀ (s : State) (v : Bool), (outputPorts (withVerbose v s)).rxAck = (outputPorts s).rxAck
        ∧ (outputPorts (withVerbose v s)).stepValid = (outputPorts s).stepValid
        ∧ (outputPorts (withVerbose v s)).outcome = (outputPorts s).outcome
        ∧ (outputPorts (withVerbose v s)).evtValid = (outputPorts s).evtValid
        ∧ (outputPorts (withVerbose v s)).evtX = (outputPorts s).evtX
        ∧ (outputPorts (withVerbose v s)).evtY = (outputPorts s).evtY
        ∧ (outputPorts (withVerbose v s)).evtPenDown = (outputPorts s).evtPenDown)

/-- The codes of the conditions and what each port shows (60_exceptions.md section 1, 10_state.md section 4; the spec's decisions D10,
D12, D18 and D19): a condition's flag is the `diag_flags` bit of its code minus one; the outcomes are numbered 0 to 3; and in every state
`rx_ack`, `step_valid` and `outcome`, `evt_valid` and the event ports, `diag_flags`, `diag_count_valid` and `diag_count` are those of the
step's acknowledgment, outcome, event and record. A port that its valid bit leaves unspecified shows no value (log entry 6). -/
def Obligations.ConditionCodesAndPortEncodings : Prop :=
  (∀ (d : Diag) (c : Condition), d.flagBits.getLsbD (c.code - 1) = d.flag c)
    ∧ Condition.code .headerMismatch = 1 ∧ Condition.code .bufferOverrun = 2
    ∧ Condition.code .checksumMismatch = 3 ∧ Condition.code .noActiveContact = 4
    ∧ outcomeBits .incomplete = 0 ∧ outcomeBits .frameReady = 1 ∧ outcomeBits .resynced = 2 ∧ outcomeBits .overflow = 3
    ∧ (∀ s : State, (outputPorts s).rxAck = s.out.ack)
    ∧ (∀ s : State, s.out.outcome = none → (outputPorts s).stepValid = false ∧ (outputPorts s).outcome = none)
    ∧ (∀ (s : State) (o : FrameOutcome), s.out.outcome = some o →
        (outputPorts s).stepValid = true ∧ (outputPorts s).outcome = some (outcomeBits o))
    ∧ (∀ s : State, s.out.event = none →
        (outputPorts s).evtValid = false ∧ (outputPorts s).evtX = none ∧ (outputPorts s).evtY = none
          ∧ (outputPorts s).evtPenDown = none)
    ∧ (∀ (s : State) (e : TouchEvent), s.out.event = some e →
        (outputPorts s).evtValid = true ∧ (outputPorts s).evtX = some e.x ∧ (outputPorts s).evtY = some e.y
          ∧ (outputPorts s).evtPenDown = some e.penDown)
    ∧ (∀ s : State, s.verbose = true →
        (outputPorts s).diagFlags = s.out.diag.flagBits ∧ (outputPorts s).diagCountValid = s.out.diag.count.isSome
          ∧ (outputPorts s).diagCount = s.out.diag.count.join)
    ∧ (∀ s : State, s.verbose = false → (outputPorts s).diagFlags = 0 ∧ (outputPorts s).diagCountValid = false)

/-! ### Invariants and runs -/

/-- The state after reset meets the invariant. -/
def Obligations.ResetMeetsTheInvariant : Prop := Inv State.reset

/-- Every step keeps the invariant (70_reset_and_hazards.md section 2, derived there), a reset edge among them, under every
configuration and either permitted mask. -/
def Obligations.EveryStepKeepsTheInvariant : Prop :=
  ∀ s t : State, Inv s → step s = .next t → Inv t

/-- A session that meets the invariant never stops: no step faults (no cell is read before it is written), and where the configuration
is a specified one every step answers a next state (70_reset_and_hazards.md sections 2 and 4, derived there). -/
def Obligations.SessionsNeverStop : Prop :=
  ∀ s : State, Inv s → (∀ f, step s ≠ .fault f) ∧ (Specified s → ∃ t, step s = .next t)

/-- Consequences of the invariant (70_reset_and_hazards.md section 2, derived there): OVERFLOW never executes and BufferOverrun is never
raised, a completed frame always passes the header re-validation, and Resynced is produced only in state 1. -/
def Obligations.GuardsAreUnreachable : Prop :=
  ∀ (s t : State) (b : Byte), Inv s → exec (.feed b) s = .next t →
    t.out.outcome ≠ some .overflow ∧ t.out.diag.bufferOverrun = false
      ∧ (s.fillCount.toNat = 42 → t.out.outcome = some .frameReady)
      ∧ (t.out.outcome = some .resynced → s.fillCount.toNat = 1)

/-- Framing (40_frame_assembler.md section 3, derived there): from state 0, 43 bytes that begin with the signature give 42 Incomplete
outcomes with no flag and then one FrameReady, at the 43rd; the buffer then holds each byte masked, and the pen, the event and the
record are the decoder's on those (43_pen_state.md section 5; the spec's decisions D14 to D17, log entry 12; the record's checksum values
rest on D18, log entry 8). Bytes inside the frame, 0x02 and 0x05 among them, do not matter. -/
def Obligations.FramingYieldsOneFrameReady : Prop :=
  ∀ (s : State) (f g : Nat → Byte), Specified s → s.params.permitted = true → s.fillCount = 0 → f 0 = 0x02 → f 1 = 0x05 →
    (∀ k, g k = f k &&& s.params.dataMask) →
    (∀ n, n < 42 → ∃ t, feedAll ((List.range (n + 1)).map f) s = .next t ∧ t.out = stepOutput .incomplete Diag.clear
      ∧ t.fillCount.toNat = n + 1 ∧ t.penDown = s.penDown)
    ∧ ∃ t, feedAll ((List.range 43).map f) s = .next t ∧ t.fillCount = 0 ∧ HoldsFrame t g
        ∧ t.penDown = (decodeFor s 43 g).penDown
        ∧ t.out = { ack := true, outcome := some .frameReady, event := (decodeFor s 43 g).event,
                    diag := { headerMismatch := false, bufferOverrun := false,
                              checksumMismatch := (decodeFor s 43 g).mismatch.isSome,
                              noActiveContact := (decodeFor s 43 g).noActiveContact,
                              checksum := (decodeFor s 43 g).mismatch, count := some (some (g 41)) } }

/-- Resynchronization and its limits (40_frame_assembler.md section 3, derived there; the second limit is a consequence of the spec's
decision D9). Spurious bytes fed from state 0 that never complete a header leave `fill_count` where the hunting automaton says and the
pen alone; if that is state 0 the next frame is recovered whole, and if it is state 1 the next frame's own header is lost. Bytes that
complete 0x02 0x05 in state 0 start a false frame: whatever follows, a real frame's header and bytes among it, is stored as its
payload, until the 43rd byte completes it. -/
def Obligations.ResynchronizationAndItsLimit : Prop :=
  ∀ (s : State) (p : List Byte), Specified s → s.params.permitted = true → s.fillCount = 0 →
    (hunt 0 p ≠ 2 → ∃ t, feedAll p s = .next t ∧ t.fillCount.toNat = hunt 0 p ∧ t.penDown = s.penDown
      ∧ ∀ a, a ≠ 0 → readCell t.buffer a = readCell s.buffer a)
    ∧ (hunt 0 p = 0 → ∀ f : Nat → Byte, f 0 = 0x02 → f 1 = 0x05 →
        ∃ t, feedAll (p ++ (List.range 43).map f) s = .next t ∧ t.out.outcome = some .frameReady
          ∧ HoldsFrame t (fun k => f k &&& s.params.dataMask))
    ∧ (hunt 0 p = 1 → ∃ t, feedAll (p ++ [0x02, 0x05]) s = .next t ∧ t.fillCount = 0 ∧ t.penDown = s.penDown
          ∧ t.out = stepOutput .incomplete (flagged .headerMismatch))
    ∧ (hunt 0 p = 0 → ∀ r : List Byte, r.length ≤ 41 →
        ∃ t, feedAll (p ++ 0x02 :: 0x05 :: r) s = .next t
          ∧ (∀ k, k < 2 + r.length →
              readCell t.buffer k = some ((0x02 :: 0x05 :: r : List Byte).getD k 0x00 &&& s.params.dataMask))
          ∧ (r.length < 41 → t.fillCount.toNat = 2 + r.length ∧ t.penDown = s.penDown
              ∧ t.out = stepOutput .incomplete Diag.clear)
          ∧ (r.length = 41 → t.fillCount = 0 ∧ t.out.outcome = some .frameReady))

/-! ### Encoding -/

/-- Words written out from the spec's tables decode to the operations they stand for, the two bits of `CFG.variant` among them (10_state.md
section 3, the spec's decision D5): 0b01 is RevisionA and 0b11 is RevisionB. -/
def Obligations.SpecWordsDecodeAsTabled : Prop :=
  decodeByte { variant := 0b01, fillCount := 0 } 0b00000010 = .hdr0Accept
    ∧ decodeByte { variant := 0b01, fillCount := 0 } 0b10000010 = .hdr0Skip 0x82
    ∧ decodeByte { variant := 0b11, fillCount := 1 } 0b00000101 = .hdr1Accept
    ∧ decodeByte { variant := 0b11, fillCount := 1 } 0b00000010 = .hdr1Resync 0x02
    ∧ decodeByte { variant := 0b01, fillCount := 41 } 0b00000010 = .append 0x02
    ∧ decodeByte { variant := 0b01, fillCount := 42 } 0b00101011 = .appendLast 0x2B
    ∧ decodeByte { variant := 0b01, fillCount := 43 } 0b00000010 = .overflow 0x02
    ∧ decodeHeader 0b0000010100000010 = .frameReady
    ∧ variantOfBits 0b00 = .legacy ∧ variantOfBits 0b01 = .revisionA
    ∧ variantOfBits 0b11 = .revisionB ∧ variantOfBits 0b10 = .reserved
    ∧ cfgVariantBits 0b011 = 0b11 ∧ cfgVerboseBit 0b011 = false ∧ cfgVariantBits 0b101 = 0b01 ∧ cfgVerboseBit 0b101 = true
    ∧ decodeAt .checksum { variant := 0b01, fillCount := 43 } .frame = .ok .csumXor
    ∧ decodeAt .checksum { variant := 0b11, fillCount := 43 } .frame = .ok .csumAdd
    ∧ decodeAt .pen { variant := 0b01, fillCount := 43 } (.status 0b00000010) = .ok .penToggleA
    ∧ decodeAt .pen { variant := 0b11, fillCount := 43 } (.status 0b00000010) = .ok (.penHoldB 0x02)
    ∧ decodePen .revisionA 0b00000010 = .ok .penToggleA
    ∧ decodePen .revisionB 0b00000011 = .ok .penDownB
    ∧ decodePen .revisionB 0b00000000 = .ok .penUpB
    ∧ decodePen .revisionB 0b00000010 = .ok (.penHoldB 0x02)
    ∧ decodeConfig (variantOfBits 0b00) = .ok .legacyRefuse
    ∧ decodeConfig (variantOfBits 0b10) = .ok .reservedRefuse

/-- The seven byte classes are pairwise disjoint and cover every pair of `fill_count` and byte: exactly one of the seven rows applies
(30_encoding.md section 1, the spec's decision D8 for the raw comparison). -/
def Obligations.ByteClassesPartitionTheBytes : Prop :=
  ∀ (c : Context) (b : Byte), ((byteRows.take 7).filter (fun r => r.applies .byte8 c (b.setWidth 16))).length = 1

/-- The decoder is the table read as the spec says: the first row, in priority order, whose state condition and pattern both hold
(30_encoding.md section 6, the spec's decision D23 for the table's form). -/
def Obligations.DecoderReadsTheTable : Prop :=
  (∀ (c : Context) (b : Byte), (variantOfBits c.variant).specified = true →
      lookupTable .byte8 c (b.setWidth 16) = some (decodeByte c b).mnemonic)
    ∧ (∀ (c : Context) (h : HeaderPair), lookupTable .frame43 c h = some (decodeHeader h).mnemonic)
    ∧ (∀ (c : Context) (v : Byte) (i : Instr), decodePen (variantOfBits c.variant) v = .ok i →
        lookupTable .crec c (v.setWidth 16) = some i.mnemonic)
    ∧ (∀ (c : Context) (v : BitVec 2) (i : Instr), decodeConfig (variantOfBits v) = .ok i →
        lookupTable .cfg c (v.setWidth 16) = some i.mnemonic)

/-- Decode and encode agree: for every well-formed operation, at every value of its operands and in every context its row's state
condition admits, decoding its encoding gives it back. -/
def Obligations.DecodeOfEncodeIsIdentity : Prop :=
  ∀ (i : Instr) (c : Context), i.wellFormed = true → i.selectedIn c = true → decodeAt i.position c (encode i) = .ok i

/-- The other direction: what a unit decodes to in a specified configuration is well formed, belongs to that position, meets its row's
state condition, and encodes back to the unit. -/
def Obligations.EncodeOfDecodeIsIdentity : Prop :=
  ∀ (p : Position) (c : Context) (u : EncUnit) (i : Instr), (variantOfBits c.variant).specified = true →
    decodeAt p c u = .ok i → i.wellFormed = true ∧ i.position = p ∧ i.selectedIn c = true ∧ encode i = u

/-- A frame pseudo-form expanded and delivered (30_encoding.md section 5, the spec's decision D23). Its 43 bytes are the header, `pad`, for
each slot `status`, `id`, `x & 0xFF`, `x >> 8`, `y & 0xFF` and `y >> 8`, then `count`, then `csum` if given and otherwise the checksum of
the 42 raw bytes. From state 0 they give FrameReady with each byte stored ANDed with `DATA_MASK` and the count reported; and the checksum
that the form computes raises no ChecksumMismatch, of `FRAME_A` under RevisionA with either mask, of `FRAME_B` under RevisionB without a
mask (41_checksum.md, derived there; the spec's decision D14). -/
def Obligations.FrameFormsAreStoredMasked : Prop :=
  ∀ (s : State) (form : FrameForm) (frame : List Byte), Specified s → s.params.permitted = true → s.fillCount = 0 →
    frame = form.expandA ∨ frame = form.expandB →
    frame.length = 43
    ∧ frame.getD 0 0x00 = 0x02 ∧ frame.getD 1 0x00 = 0x05
    ∧ frame.getD 2 0x00 = form.pad2 ∧ frame.getD 3 0x00 = form.pad3 ∧ frame.getD 4 0x00 = form.pad4
    ∧ (∀ (i : Nat) (slot : SlotForm), [form.s0, form.s1, form.s2, form.s3, form.s4, form.s5][i]? = some slot →
        frame.getD (5 + 6 * i) 0x00 = slot.status ∧ frame.getD (5 + 6 * i + 1) 0x00 = slot.id
        ∧ (frame.getD (5 + 6 * i + 2) 0x00).setWidth 16 = slot.x &&& 0xFF ∧ (frame.getD (5 + 6 * i + 3) 0x00).setWidth 16 = slot.x >>> 8
        ∧ (frame.getD (5 + 6 * i + 4) 0x00).setWidth 16 = slot.y &&& 0xFF ∧ (frame.getD (5 + 6 * i + 5) 0x00).setWidth 16 = slot.y >>> 8)
    ∧ frame.getD 41 0x00 = form.count
    ∧ (∀ c, form.csum = some c → frame.getD 42 0x00 = c)
    ∧ (form.csum = none → frame = form.expandA → frame.getD 42 0x00 = xorOfFrame 0x00 (fun k => frame.getD k 0x00))
    ∧ (form.csum = none → frame = form.expandB → frame.getD 42 0x00 = sumOfFrame 0x00 (fun k => frame.getD k 0x00))
    ∧ ∃ t, feedAll frame s = .next t ∧ t.fillCount = 0 ∧ t.out.outcome = some .frameReady
      ∧ (∀ k, k < 43 → readCell t.buffer k = some (frame.getD k 0x00 &&& s.params.dataMask))
      ∧ t.out.diag.count = some (some (form.count &&& s.params.dataMask))
      ∧ (form.csum = none → frame = form.expandA → s.variant = .revisionA → t.out.diag.checksumMismatch = false)
      ∧ (form.csum = none → frame = form.expandB → s.variant = .revisionB → s.params.dataMask = 0xFF →
          t.out.diag.checksumMismatch = false)
end

