-- ==== Sys2Proof/Laws/State.lean ====
section
/-! SUPPORT. One lemma for each field under each one-field update of the state, and what the updates leave of the derived readings. -/

namespace Sys2Proof.Machine

@[simp] theorem State.setBuffer_buffer (s : State) (m : Memory) : (s.setBuffer m).buffer = m := rfl
@[simp] theorem State.setBuffer_fillCount (s : State) (m : Memory) : (s.setBuffer m).fillCount = s.fillCount := rfl
@[simp] theorem State.setBuffer_penDown (s : State) (m : Memory) : (s.setBuffer m).penDown = s.penDown := rfl
@[simp] theorem State.setBuffer_cfg (s : State) (m : Memory) : (s.setBuffer m).cfg = s.cfg := rfl
@[simp] theorem State.setBuffer_out (s : State) (m : Memory) : (s.setBuffer m).out = s.out := rfl
@[simp] theorem State.setBuffer_params (s : State) (m : Memory) : (s.setBuffer m).params = s.params := rfl
@[simp] theorem State.setBuffer_inputs (s : State) (m : Memory) : (s.setBuffer m).inputs = s.inputs := rfl

@[simp] theorem State.setFill_buffer (s : State) (n : BitVec 6) : (s.setFill n).buffer = s.buffer := rfl
@[simp] theorem State.setFill_fillCount (s : State) (n : BitVec 6) : (s.setFill n).fillCount = n := rfl
@[simp] theorem State.setFill_penDown (s : State) (n : BitVec 6) : (s.setFill n).penDown = s.penDown := rfl
@[simp] theorem State.setFill_cfg (s : State) (n : BitVec 6) : (s.setFill n).cfg = s.cfg := rfl
@[simp] theorem State.setFill_out (s : State) (n : BitVec 6) : (s.setFill n).out = s.out := rfl
@[simp] theorem State.setFill_params (s : State) (n : BitVec 6) : (s.setFill n).params = s.params := rfl
@[simp] theorem State.setFill_inputs (s : State) (n : BitVec 6) : (s.setFill n).inputs = s.inputs := rfl

@[simp] theorem State.setPen_buffer (s : State) (p : Bool) : (s.setPen p).buffer = s.buffer := rfl
@[simp] theorem State.setPen_fillCount (s : State) (p : Bool) : (s.setPen p).fillCount = s.fillCount := rfl
@[simp] theorem State.setPen_penDown (s : State) (p : Bool) : (s.setPen p).penDown = p := rfl
@[simp] theorem State.setPen_cfg (s : State) (p : Bool) : (s.setPen p).cfg = s.cfg := rfl
@[simp] theorem State.setPen_out (s : State) (p : Bool) : (s.setPen p).out = s.out := rfl
@[simp] theorem State.setPen_params (s : State) (p : Bool) : (s.setPen p).params = s.params := rfl
@[simp] theorem State.setPen_inputs (s : State) (p : Bool) : (s.setPen p).inputs = s.inputs := rfl

@[simp] theorem State.setCfg_buffer (s : State) (c : BitVec 3) : (s.setCfg c).buffer = s.buffer := rfl
@[simp] theorem State.setCfg_fillCount (s : State) (c : BitVec 3) : (s.setCfg c).fillCount = s.fillCount := rfl
@[simp] theorem State.setCfg_penDown (s : State) (c : BitVec 3) : (s.setCfg c).penDown = s.penDown := rfl
@[simp] theorem State.setCfg_cfg (s : State) (c : BitVec 3) : (s.setCfg c).cfg = c := rfl
@[simp] theorem State.setCfg_out (s : State) (c : BitVec 3) : (s.setCfg c).out = s.out := rfl
@[simp] theorem State.setCfg_params (s : State) (c : BitVec 3) : (s.setCfg c).params = s.params := rfl
@[simp] theorem State.setCfg_inputs (s : State) (c : BitVec 3) : (s.setCfg c).inputs = s.inputs := rfl

@[simp] theorem State.setOut_buffer (s : State) (o : StepOut) : (s.setOut o).buffer = s.buffer := rfl
@[simp] theorem State.setOut_fillCount (s : State) (o : StepOut) : (s.setOut o).fillCount = s.fillCount := rfl
@[simp] theorem State.setOut_penDown (s : State) (o : StepOut) : (s.setOut o).penDown = s.penDown := rfl
@[simp] theorem State.setOut_cfg (s : State) (o : StepOut) : (s.setOut o).cfg = s.cfg := rfl
@[simp] theorem State.setOut_out (s : State) (o : StepOut) : (s.setOut o).out = o := rfl
@[simp] theorem State.setOut_params (s : State) (o : StepOut) : (s.setOut o).params = s.params := rfl
@[simp] theorem State.setOut_inputs (s : State) (o : StepOut) : (s.setOut o).inputs = s.inputs := rfl

@[simp] theorem State.setParams_buffer (s : State) (p : Params) : (s.setParams p).buffer = s.buffer := rfl
@[simp] theorem State.setParams_fillCount (s : State) (p : Params) : (s.setParams p).fillCount = s.fillCount := rfl
@[simp] theorem State.setParams_penDown (s : State) (p : Params) : (s.setParams p).penDown = s.penDown := rfl
@[simp] theorem State.setParams_cfg (s : State) (p : Params) : (s.setParams p).cfg = s.cfg := rfl
@[simp] theorem State.setParams_out (s : State) (p : Params) : (s.setParams p).out = s.out := rfl
@[simp] theorem State.setParams_params (s : State) (p : Params) : (s.setParams p).params = p := rfl
@[simp] theorem State.setParams_inputs (s : State) (p : Params) : (s.setParams p).inputs = s.inputs := rfl

@[simp] theorem State.setInputs_buffer (s : State) (es : List Edge) : (s.setInputs es).buffer = s.buffer := rfl
@[simp] theorem State.setInputs_fillCount (s : State) (es : List Edge) : (s.setInputs es).fillCount = s.fillCount := rfl
@[simp] theorem State.setInputs_penDown (s : State) (es : List Edge) : (s.setInputs es).penDown = s.penDown := rfl
@[simp] theorem State.setInputs_cfg (s : State) (es : List Edge) : (s.setInputs es).cfg = s.cfg := rfl
@[simp] theorem State.setInputs_out (s : State) (es : List Edge) : (s.setInputs es).out = s.out := rfl
@[simp] theorem State.setInputs_params (s : State) (es : List Edge) : (s.setInputs es).params = s.params := rfl
@[simp] theorem State.setInputs_inputs (s : State) (es : List Edge) : (s.setInputs es).inputs = es := rfl

@[simp] theorem State.setBuffer_variant (s : State) (m : Memory) : (s.setBuffer m).variant = s.variant := rfl
@[simp] theorem State.setBuffer_verbose (s : State) (m : Memory) : (s.setBuffer m).verbose = s.verbose := rfl
@[simp] theorem State.setBuffer_checksumRejects (s : State) (m : Memory) : checksumRejects (s.setBuffer m) = checksumRejects s := rfl
@[simp] theorem State.setBuffer_storedByte (s : State) (m : Memory) (b : Byte) : storedByte (s.setBuffer m) b = storedByte s b := rfl
@[simp] theorem State.setFill_variant (s : State) (n : BitVec 6) : (s.setFill n).variant = s.variant := rfl
@[simp] theorem State.setFill_verbose (s : State) (n : BitVec 6) : (s.setFill n).verbose = s.verbose := rfl
@[simp] theorem State.setFill_checksumRejects (s : State) (n : BitVec 6) : checksumRejects (s.setFill n) = checksumRejects s := rfl
@[simp] theorem State.setFill_storedByte (s : State) (n : BitVec 6) (b : Byte) : storedByte (s.setFill n) b = storedByte s b := rfl
@[simp] theorem State.setFill_memRead1 (s : State) (n : BitVec 6) (a : Nat) : memRead1 (s.setFill n) a = memRead1 s a := rfl
@[simp] theorem State.setPen_variant (s : State) (p : Bool) : (s.setPen p).variant = s.variant := rfl
@[simp] theorem State.setPen_verbose (s : State) (p : Bool) : (s.setPen p).verbose = s.verbose := rfl
@[simp] theorem State.setPen_checksumRejects (s : State) (p : Bool) : checksumRejects (s.setPen p) = checksumRejects s := rfl
@[simp] theorem State.setPen_storedByte (s : State) (p : Bool) (b : Byte) : storedByte (s.setPen p) b = storedByte s b := rfl
@[simp] theorem State.setPen_memRead1 (s : State) (p : Bool) (a : Nat) : memRead1 (s.setPen p) a = memRead1 s a := rfl
@[simp] theorem State.setCfg_storedByte (s : State) (c : BitVec 3) (b : Byte) : storedByte (s.setCfg c) b = storedByte s b := rfl
@[simp] theorem State.setCfg_memRead1 (s : State) (c : BitVec 3) (a : Nat) : memRead1 (s.setCfg c) a = memRead1 s a := rfl
@[simp] theorem State.setOut_variant (s : State) (o : StepOut) : (s.setOut o).variant = s.variant := rfl
@[simp] theorem State.setOut_verbose (s : State) (o : StepOut) : (s.setOut o).verbose = s.verbose := rfl
@[simp] theorem State.setOut_checksumRejects (s : State) (o : StepOut) : checksumRejects (s.setOut o) = checksumRejects s := rfl
@[simp] theorem State.setOut_storedByte (s : State) (o : StepOut) (b : Byte) : storedByte (s.setOut o) b = storedByte s b := rfl
@[simp] theorem State.setOut_memRead1 (s : State) (o : StepOut) (a : Nat) : memRead1 (s.setOut o) a = memRead1 s a := rfl
@[simp] theorem State.setParams_variant (s : State) (p : Params) : (s.setParams p).variant = s.variant := rfl
@[simp] theorem State.setParams_verbose (s : State) (p : Params) : (s.setParams p).verbose = s.verbose := rfl
@[simp] theorem State.setParams_memRead1 (s : State) (p : Params) (a : Nat) : memRead1 (s.setParams p) a = memRead1 s a := rfl
@[simp] theorem State.setInputs_variant (s : State) (es : List Edge) : (s.setInputs es).variant = s.variant := rfl
@[simp] theorem State.setInputs_verbose (s : State) (es : List Edge) : (s.setInputs es).verbose = s.verbose := rfl
@[simp] theorem State.setInputs_checksumRejects (s : State) (es : List Edge) : checksumRejects (s.setInputs es) = checksumRejects s := rfl
@[simp] theorem State.setInputs_storedByte (s : State) (es : List Edge) (b : Byte) : storedByte (s.setInputs es) b = storedByte s b := rfl
@[simp] theorem State.setInputs_memRead1 (s : State) (es : List Edge) (a : Nat) : memRead1 (s.setInputs es) a = memRead1 s a := rfl

@[simp] theorem State.setFill_context_variant (s : State) (n : BitVec 6) : (s.setFill n).context.variant = s.context.variant := rfl

theorem State.context_eq (s : State) : s.context = { variant := cfgVariantBits s.cfg, fillCount := s.fillCount } := rfl

theorem State.variant_eq (s : State) : variantOfBits s.context.variant = s.variant := rfl

end Sys2Proof.Machine
end

