-- ==== Sys2Proof/Laws/Memory.lean ====
section
/-! SUPPORT. The laws of the buffer: a read after a write, the canonical form, and what the memory primitives answer. -/

namespace Sys2Proof.Machine

theorem readCell_writeCell_same (m : Memory) (i : Nat) (v : Byte) : readCell (writeCell m i v) i = some v := by
  induction m with
  | nil => simp [writeCell, readCell]
  | cons c rest ih =>
    obtain ⟨a, b⟩ := c
    rw [writeCell]
    split
    · simp [readCell]
    · split
      · simp [readCell]
      · rename_i h
        have h' : a ≠ i := fun e => h e.symm
        simp [readCell, h', ih]

theorem readCell_writeCell_other (m : Memory) {i j : Nat} (v : Byte) (h : j ≠ i) :
    readCell (writeCell m i v) j = readCell m j := by
  have hi : i ≠ j := fun e => h e.symm
  induction m with
  | nil => simp [writeCell, readCell, hi]
  | cons c rest ih =>
    obtain ⟨a, b⟩ := c
    rw [writeCell]
    split
    · simp [readCell, hi]
    · split
      · rename_i e
        subst e
        simp [readCell, hi]
      · simp only [readCell, ih]

/-- One write, seen from any cell. -/
theorem readCell_writeCell (m : Memory) (i j : Nat) (v : Byte) :
    readCell (writeCell m i v) j = if j = i then some v else readCell m j := by
  split
  · rename_i h
    rw [h, readCell_writeCell_same]
  · rename_i h
    exact readCell_writeCell_other m v h

theorem memWfFrom_mono {low low' : Nat} {m : Memory} (h : low' ≤ low) (hm : memWfFrom low m = true) :
    memWfFrom low' m = true := by
  cases m with
  | nil => rfl
  | cons c rest =>
    simp only [memWfFrom, Bool.and_eq_true, decide_eq_true_eq] at hm ⊢
    exact ⟨⟨by omega, hm.1.2⟩, hm.2⟩

theorem memWfFrom_writeCell {low i : Nat} {m : Memory} (v : Byte) (hl : low ≤ i) (hi : i < 43)
    (hm : memWfFrom low m = true) : memWfFrom low (writeCell m i v) = true := by
  induction m generalizing low with
  | nil => simp [writeCell, memWfFrom, hl, hi]
  | cons c rest ih =>
    obtain ⟨a, b⟩ := c
    simp only [memWfFrom, Bool.and_eq_true, decide_eq_true_eq] at hm
    obtain ⟨⟨h1, h2⟩, h3⟩ := hm
    rw [writeCell]
    split
    · rename_i h
      simp only [memWfFrom, Bool.and_eq_true, decide_eq_true_eq]
      exact ⟨⟨hl, hi⟩, ⟨by omega, h2⟩, h3⟩
    · split
      · rename_i h
        subst h
        simp [memWfFrom, hl, hi, h3]
      · simp only [memWfFrom, Bool.and_eq_true, decide_eq_true_eq]
        exact ⟨⟨h1, h2⟩, ih (by omega) h3⟩

/-- A write inside the index space keeps the canonical form. -/
theorem wf_writeCell {m : Memory} {i : Nat} (v : Byte) (hi : i < 43) (hm : m.wf = true) : (writeCell m i v : Memory).wf = true :=
  memWfFrom_writeCell v (Nat.zero_le i) hi hm

theorem readCell_none_of_wfFrom {low i : Nat} {m : Memory} (h : i < low) (hm : memWfFrom low m = true) :
    readCell m i = none := by
  induction m generalizing low with
  | nil => rfl
  | cons c rest ih =>
    simp only [memWfFrom, Bool.and_eq_true, decide_eq_true_eq] at hm
    have hne : c.1 ≠ i := by omega
    simp only [readCell, hne, if_false]
    exact ih (by omega) hm.2

/-- Two buffers in canonical form that read alike are the same data. -/
theorem memory_ext {low : Nat} {m n : Memory} (hm : memWfFrom low m = true) (hn : memWfFrom low n = true)
    (h : ∀ i, readCell m i = readCell n i) : m = n := by
  induction m generalizing low n with
  | nil =>
    cases n with
    | nil => rfl
    | cons c rest =>
      have := h c.1
      simp [readCell] at this
  | cons c rest ih =>
    obtain ⟨a, b⟩ := c
    cases n with
    | nil =>
      have := h a
      simp [readCell] at this
    | cons d rest' =>
      obtain ⟨a', b'⟩ := d
      simp only [memWfFrom, Bool.and_eq_true, decide_eq_true_eq] at hm hn
      have hab : a = a' := by
        rcases Nat.lt_trichotomy a a' with hlt | heq | hgt
        · have h1 := h a
          have h2 := readCell_none_of_wfFrom (i := a) (by omega) hn.2
          have hne : a' ≠ a := by omega
          simp [readCell, hne, h2] at h1
        · exact heq
        · have h1 := h a'
          have h2 := readCell_none_of_wfFrom (i := a') (by omega) hm.2
          have hne : a ≠ a' := by omega
          simp [readCell, hne, h2] at h1
      subst hab
      have hb : b = b' := by
        have := h a
        simpa [readCell] using this
      subst hb
      congr 1
      refine ih hm.2 hn.2 (fun i => ?_)
      by_cases hi : a = i
      · subst hi
        rw [readCell_none_of_wfFrom (by omega) hm.2, readCell_none_of_wfFrom (by omega) hn.2]
      · have := h i
        simpa [readCell, hi] using this

/-! ### The primitives -/

/-- What `MemRead(addr, 1)` answers when it answers a byte. -/
theorem memRead1_eq_ok {s : State} {a : Nat} {v : Byte} (ha : a < 43) (h : readCell s.buffer a = some v) :
    memRead1 s a = .ok v := by
  simp [memRead1, ha, h]

theorem memRead1_eq_ok_iff (s : State) (a : Nat) (v : Byte) :
    memRead1 s a = .ok v ↔ a < 43 ∧ readCell s.buffer a = some v := by
  unfold memRead1
  split
  · rename_i h
    cases readCell s.buffer a <;> simp [h]
  · rename_i h
    simp [h]

/-- What `MemRead(addr, 2)` answers when both cells hold a value: the lower cell is the less significant byte (R45). -/
theorem memRead2_eq_ok {s : State} {a : Nat} {lo hi : Byte} (ha : a + 1 < 43) (h0 : readCell s.buffer a = some lo)
    (h1 : readCell s.buffer (a + 1) = some hi) : memRead2 s a = .ok (pairLE lo hi) := by
  simp [memRead2, memRead1_eq_ok (by omega) h0, memRead1_eq_ok ha h1]

/-- `MemWrite` inside the index space. -/
theorem memWrite1_of_lt (s : State) {a : Nat} (v : Byte) (ha : a < 43) :
    memWrite1 s a v = .next (s.setBuffer (writeCell s.buffer a v)) := by
  simp [memWrite1, ha]

end Sys2Proof.Machine
end

