-- ==== Sys2Proof/Laws/Ops.lean ====
section
/-! SUPPORT. What each shared operation can do, said once: the named updates field by field, sequencing, sessions, and storing a byte. -/

namespace Sys2Proof.Machine

/-! ### raise -/

@[simp] theorem raise_buffer (c : Condition) (s : State) : (raise c s).buffer = s.buffer := rfl
@[simp] theorem raise_fillCount (c : Condition) (s : State) : (raise c s).fillCount = s.fillCount := rfl
@[simp] theorem raise_penDown (c : Condition) (s : State) : (raise c s).penDown = s.penDown := rfl
@[simp] theorem raise_cfg (c : Condition) (s : State) : (raise c s).cfg = s.cfg := rfl
@[simp] theorem raise_out (c : Condition) (s : State) : (raise c s).out = { s.out with diag := s.out.diag.withFlag c } := rfl
@[simp] theorem raise_params (c : Condition) (s : State) : (raise c s).params = s.params := rfl
@[simp] theorem raise_inputs (c : Condition) (s : State) : (raise c s).inputs = s.inputs := rfl
@[simp] theorem raise_variant (c : Condition) (s : State) : (raise c s).variant = s.variant := rfl
@[simp] theorem raise_checksumRejects (c : Condition) (s : State) : checksumRejects (raise c s) = checksumRejects s := rfl
@[simp] theorem raise_storedByte (c : Condition) (s : State) (b : Byte) : storedByte (raise c s) b = storedByte s b := rfl
@[simp] theorem raise_memRead1 (c : Condition) (s : State) (a : Nat) : memRead1 (raise c s) a = memRead1 s a := rfl

/-! ### raiseMismatch -/

@[simp] theorem raiseMismatch_buffer (c d : Byte) (s : State) : (raiseMismatch c d s).buffer = s.buffer := rfl
@[simp] theorem raiseMismatch_fillCount (c d : Byte) (s : State) : (raiseMismatch c d s).fillCount = s.fillCount := rfl
@[simp] theorem raiseMismatch_penDown (c d : Byte) (s : State) : (raiseMismatch c d s).penDown = s.penDown := rfl
@[simp] theorem raiseMismatch_cfg (c d : Byte) (s : State) : (raiseMismatch c d s).cfg = s.cfg := rfl
@[simp] theorem raiseMismatch_out (c d : Byte) (s : State) : (raiseMismatch c d s).out
    = { s.out with diag := { s.out.diag.withFlag .checksumMismatch with checksum := some { computed := c, stored := d } } } := rfl
@[simp] theorem raiseMismatch_params (c d : Byte) (s : State) : (raiseMismatch c d s).params = s.params := rfl
@[simp] theorem raiseMismatch_inputs (c d : Byte) (s : State) : (raiseMismatch c d s).inputs = s.inputs := rfl
@[simp] theorem raiseMismatch_variant (c d : Byte) (s : State) : (raiseMismatch c d s).variant = s.variant := rfl
@[simp] theorem raiseMismatch_checksumRejects (c d : Byte) (s : State) : checksumRejects (raiseMismatch c d s) = checksumRejects s := rfl
@[simp] theorem raiseMismatch_storedByte (c d : Byte) (s : State) (b : Byte) : storedByte (raiseMismatch c d s) b = storedByte s b := rfl
@[simp] theorem raiseMismatch_memRead1 (c d : Byte) (s : State) (a : Nat) : memRead1 (raiseMismatch c d s) a = memRead1 s a := rfl

/-! ### beginStep -/

@[simp] theorem beginStep_buffer (s : State) : (beginStep s).buffer = s.buffer := rfl
@[simp] theorem beginStep_fillCount (s : State) : (beginStep s).fillCount = s.fillCount := rfl
@[simp] theorem beginStep_penDown (s : State) : (beginStep s).penDown = s.penDown := rfl
@[simp] theorem beginStep_cfg (s : State) : (beginStep s).cfg = s.cfg := rfl
@[simp] theorem beginStep_out (s : State) : (beginStep s).out = StepOut.begun := rfl
@[simp] theorem beginStep_params (s : State) : (beginStep s).params = s.params := rfl
@[simp] theorem beginStep_inputs (s : State) : (beginStep s).inputs = s.inputs := rfl
@[simp] theorem beginStep_variant (s : State) : (beginStep s).variant = s.variant := rfl
@[simp] theorem beginStep_checksumRejects (s : State) : checksumRejects (beginStep s) = checksumRejects s := rfl
@[simp] theorem beginStep_storedByte (s : State) (b : Byte) : storedByte (beginStep s) b = storedByte s b := rfl
@[simp] theorem beginStep_memRead1 (s : State) (a : Nat) : memRead1 (beginStep s) a = memRead1 s a := rfl

/-! ### setOutcome -/

@[simp] theorem setOutcome_buffer (v : FrameOutcome) (s : State) : (setOutcome v s).buffer = s.buffer := rfl
@[simp] theorem setOutcome_fillCount (v : FrameOutcome) (s : State) : (setOutcome v s).fillCount = s.fillCount := rfl
@[simp] theorem setOutcome_penDown (v : FrameOutcome) (s : State) : (setOutcome v s).penDown = s.penDown := rfl
@[simp] theorem setOutcome_cfg (v : FrameOutcome) (s : State) : (setOutcome v s).cfg = s.cfg := rfl
@[simp] theorem setOutcome_out (v : FrameOutcome) (s : State) : (setOutcome v s).out = { s.out with outcome := some v } := rfl
@[simp] theorem setOutcome_params (v : FrameOutcome) (s : State) : (setOutcome v s).params = s.params := rfl
@[simp] theorem setOutcome_inputs (v : FrameOutcome) (s : State) : (setOutcome v s).inputs = s.inputs := rfl
@[simp] theorem setOutcome_variant (v : FrameOutcome) (s : State) : (setOutcome v s).variant = s.variant := rfl
@[simp] theorem setOutcome_checksumRejects (v : FrameOutcome) (s : State) : checksumRejects (setOutcome v s) = checksumRejects s := rfl
@[simp] theorem setOutcome_storedByte (v : FrameOutcome) (s : State) (b : Byte) : storedByte (setOutcome v s) b = storedByte s b := rfl
@[simp] theorem setOutcome_memRead1 (v : FrameOutcome) (s : State) (a : Nat) : memRead1 (setOutcome v s) a = memRead1 s a := rfl

/-! ### emitEvent -/

@[simp] theorem emitEvent_buffer (x y : Coord) (s : State) : (emitEvent x y s).buffer = s.buffer := rfl
@[simp] theorem emitEvent_fillCount (x y : Coord) (s : State) : (emitEvent x y s).fillCount = s.fillCount := rfl
@[simp] theorem emitEvent_penDown (x y : Coord) (s : State) : (emitEvent x y s).penDown = s.penDown := rfl
@[simp] theorem emitEvent_cfg (x y : Coord) (s : State) : (emitEvent x y s).cfg = s.cfg := rfl
@[simp] theorem emitEvent_out (x y : Coord) (s : State) : (emitEvent x y s).out = { s.out with event := some { x := x, y := y, penDown := s.penDown } } := rfl
@[simp] theorem emitEvent_params (x y : Coord) (s : State) : (emitEvent x y s).params = s.params := rfl
@[simp] theorem emitEvent_inputs (x y : Coord) (s : State) : (emitEvent x y s).inputs = s.inputs := rfl
@[simp] theorem emitEvent_variant (x y : Coord) (s : State) : (emitEvent x y s).variant = s.variant := rfl
@[simp] theorem emitEvent_checksumRejects (x y : Coord) (s : State) : checksumRejects (emitEvent x y s) = checksumRejects s := rfl
@[simp] theorem emitEvent_storedByte (x y : Coord) (s : State) (b : Byte) : storedByte (emitEvent x y s) b = storedByte s b := rfl
@[simp] theorem emitEvent_memRead1 (x y : Coord) (s : State) (a : Nat) : memRead1 (emitEvent x y s) a = memRead1 s a := rfl

/-! ### reportCount -/

@[simp] theorem reportCount_buffer (c : Option Byte) (s : State) : (reportCount c s).buffer = s.buffer := rfl
@[simp] theorem reportCount_fillCount (c : Option Byte) (s : State) : (reportCount c s).fillCount = s.fillCount := rfl
@[simp] theorem reportCount_penDown (c : Option Byte) (s : State) : (reportCount c s).penDown = s.penDown := rfl
@[simp] theorem reportCount_cfg (c : Option Byte) (s : State) : (reportCount c s).cfg = s.cfg := rfl
@[simp] theorem reportCount_out (c : Option Byte) (s : State) : (reportCount c s).out = { s.out with diag := { s.out.diag with count := some c } } := rfl
@[simp] theorem reportCount_params (c : Option Byte) (s : State) : (reportCount c s).params = s.params := rfl
@[simp] theorem reportCount_inputs (c : Option Byte) (s : State) : (reportCount c s).inputs = s.inputs := rfl
@[simp] theorem reportCount_variant (c : Option Byte) (s : State) : (reportCount c s).variant = s.variant := rfl
@[simp] theorem reportCount_checksumRejects (c : Option Byte) (s : State) : checksumRejects (reportCount c s) = checksumRejects s := rfl
@[simp] theorem reportCount_storedByte (c : Option Byte) (s : State) (b : Byte) : storedByte (reportCount c s) b = storedByte s b := rfl
@[simp] theorem reportCount_memRead1 (c : Option Byte) (s : State) (a : Nat) : memRead1 (reportCount c s) a = memRead1 s a := rfl

/-! ### idleEdge -/

@[simp] theorem idleEdge_buffer (s : State) : (idleEdge s).buffer = s.buffer := rfl
@[simp] theorem idleEdge_fillCount (s : State) : (idleEdge s).fillCount = s.fillCount := rfl
@[simp] theorem idleEdge_penDown (s : State) : (idleEdge s).penDown = s.penDown := rfl
@[simp] theorem idleEdge_cfg (s : State) : (idleEdge s).cfg = s.cfg := rfl
@[simp] theorem idleEdge_out (s : State) : (idleEdge s).out = StepOut.quiet := rfl
@[simp] theorem idleEdge_params (s : State) : (idleEdge s).params = s.params := rfl
@[simp] theorem idleEdge_inputs (s : State) : (idleEdge s).inputs = s.inputs := rfl
@[simp] theorem idleEdge_variant (s : State) : (idleEdge s).variant = s.variant := rfl
@[simp] theorem idleEdge_checksumRejects (s : State) : checksumRejects (idleEdge s) = checksumRejects s := rfl
@[simp] theorem idleEdge_storedByte (s : State) (b : Byte) : storedByte (idleEdge s) b = storedByte s b := rfl
@[simp] theorem idleEdge_memRead1 (s : State) (a : Nat) : memRead1 (idleEdge s) a = memRead1 s a := rfl

/-! ### afterEdge -/

@[simp] theorem afterEdge_buffer (s : State) : (afterEdge s).buffer = s.buffer := rfl
@[simp] theorem afterEdge_fillCount (s : State) : (afterEdge s).fillCount = s.fillCount := rfl
@[simp] theorem afterEdge_penDown (s : State) : (afterEdge s).penDown = s.penDown := rfl
@[simp] theorem afterEdge_cfg (s : State) : (afterEdge s).cfg = s.cfg := rfl
@[simp] theorem afterEdge_out (s : State) : (afterEdge s).out = s.out := rfl
@[simp] theorem afterEdge_params (s : State) : (afterEdge s).params = s.params := rfl
@[simp] theorem afterEdge_inputs (s : State) : (afterEdge s).inputs = s.inputs.tail := rfl
@[simp] theorem afterEdge_variant (s : State) : (afterEdge s).variant = s.variant := rfl
@[simp] theorem afterEdge_checksumRejects (s : State) : checksumRejects (afterEdge s) = checksumRejects s := rfl
@[simp] theorem afterEdge_storedByte (s : State) (b : Byte) : storedByte (afterEdge s) b = storedByte s b := rfl
@[simp] theorem afterEdge_memRead1 (s : State) (a : Nat) : memRead1 (afterEdge s) a = memRead1 s a := rfl

/-! ### createSession -/

@[simp] theorem createSession_buffer (v : BitVec 2) (vb : Bool) (s : State) : (createSession v vb s).buffer = s.buffer := rfl
@[simp] theorem createSession_fillCount (v : BitVec 2) (vb : Bool) (s : State) : (createSession v vb s).fillCount = 0 := rfl
@[simp] theorem createSession_penDown (v : BitVec 2) (vb : Bool) (s : State) : (createSession v vb s).penDown = false := rfl
@[simp] theorem createSession_cfg (v : BitVec 2) (vb : Bool) (s : State) : (createSession v vb s).cfg = packCfg v vb := rfl
@[simp] theorem createSession_out (v : BitVec 2) (vb : Bool) (s : State) : (createSession v vb s).out = StepOut.quiet := rfl
@[simp] theorem createSession_params (v : BitVec 2) (vb : Bool) (s : State) : (createSession v vb s).params = s.params := rfl
@[simp] theorem createSession_inputs (v : BitVec 2) (vb : Bool) (s : State) : (createSession v vb s).inputs = s.inputs := rfl
@[simp] theorem createSession_storedByte (v : BitVec 2) (vb : Bool) (s : State) (b : Byte) : storedByte (createSession v vb s) b = storedByte s b := rfl
@[simp] theorem createSession_memRead1 (v : BitVec 2) (vb : Bool) (s : State) (a : Nat) : memRead1 (createSession v vb s) a = memRead1 s a := rfl

/-! ### Sequencing -/

section Sequencing

variable {α β : Type}

@[simp] theorem withRead_ok (a : α) (k : α → Answer β) : withRead (.ok a) k = k a := rfl
@[simp] theorem withRead_error (f : Fault) (k : α → Answer β) : withRead (.error f) k = .fault f := rfl
@[simp] theorem andThen_next (a : α) (k : α → Answer β) : andThen (.next a) k = k a := rfl
@[simp] theorem andThen_fault (f : Fault) (k : α → Answer β) : andThen (.fault f) k = .fault f := rfl
@[simp] theorem andThen_refused (r : Refusal) (k : α → Answer β) : andThen (.refused r) k = .refused r := rfl

@[simp] theorem Progress.state_ended (s : State) : (Progress.ended s : Progress α).state = s := rfl
@[simp] theorem Progress.state_going (a : α) (s : State) : (Progress.going a s).state = s := rfl

@[simp] theorem whileGoing_ended (s : State) (k : α → State → Answer (Progress β)) :
    whileGoing (.next (.ended s)) k = .next (.ended s) := rfl
@[simp] theorem whileGoing_going (a : α) (s : State) (k : α → State → Answer (Progress β)) :
    whileGoing (.next (.going a s)) k = k a s := rfl
@[simp] theorem whileGoing_fault (f : Fault) (k : α → State → Answer (Progress β)) : whileGoing (.fault f) k = .fault f := rfl
@[simp] theorem whileGoing_refused (r : Refusal) (k : α → State → Answer (Progress β)) :
    whileGoing (.refused r) k = .refused r := rfl

@[simp] theorem stateOf_next (p : Progress α) : stateOf (.next p) = .next p.state := rfl
@[simp] theorem stateOf_fault (f : Fault) : stateOf (.fault f : Answer (Progress α)) = .fault f := rfl
@[simp] theorem stateOf_refused (r : Refusal) : stateOf (.refused r : Answer (Progress α)) = .refused r := rfl

theorem withRead_eq_next {r : Except Fault α} {k : α → Answer β} {t : β} (h : withRead r k = .next t) :
    ∃ a, r = .ok a ∧ k a = .next t := by
  cases r with
  | ok a => exact ⟨a, rfl, h⟩
  | error f => cases h

theorem andThen_eq_next {o : Answer α} {k : α → Answer β} {t : β} (h : andThen o k = .next t) :
    ∃ u, o = .next u ∧ k u = .next t := by
  cases o with
  | next u => exact ⟨u, rfl, h⟩
  | fault f => cases h
  | refused r => cases h

theorem stateOf_eq_next {o : Answer (Progress α)} {t : State} (h : stateOf o = .next t) : ∃ p, o = .next p ∧ p.state = t := by
  obtain ⟨p, hp, h⟩ := andThen_eq_next h
  cases h
  exact ⟨p, hp, rfl⟩

/-- What `whileGoing` answers is the ended decoding itself or comes from going on. -/
theorem whileGoing_eq_next {o : Answer (Progress α)} {k : α → State → Answer (Progress β)} {q : Progress β}
    (h : whileGoing o k = .next q) :
    (∃ s, o = .next (.ended s) ∧ q = .ended s) ∨ (∃ a s, o = .next (.going a s) ∧ k a s = .next q) := by
  obtain ⟨p, hp, hk⟩ := andThen_eq_next h
  cases p with
  | ended s => cases hk; exact .inl ⟨s, hp, rfl⟩
  | going a s => exact .inr ⟨a, s, hp, hk⟩

end Sequencing

/-! ### Sessions -/

theorem inSession_of_specified {α : Type} {s : State} (h : s.variant.specified = true) (k : Answer α) : inSession s k = k := by
  unfold inSession
  cases hv : s.variant <;> simp_all [Variant.specified]

theorem inSession_eq_next {α : Type} {s : State} {k : Answer α} {t : α} (h : inSession s k = .next t) :
    s.variant.specified = true ∧ k = .next t := by
  unfold inSession at h
  cases hv : s.variant <;> simp_all [Variant.specified]

theorem inSession_legacy {α : Type} {s : State} (h : s.variant = .legacy) (k : Answer α) : inSession s k = .refused .legacySession := by
  simp [inSession, h]

theorem inSession_reserved {α : Type} {s : State} (h : s.variant = .reserved) (k : Answer α) :
    inSession s k = .refused .reservedConfiguration := by
  simp [inSession, h]

/-! ### Storing a byte -/

/-- Storing inside the index space: the cell holds the masked byte and `fill_count` its new value. -/
theorem storeByte_of_lt {index : Nat} (h : index < 43) (b : Byte) (n : BitVec 6) (s : State) :
    storeByte index b n s = .next ((s.setBuffer (writeCell s.buffer index (storedByte s b))).setFill n) := by
  simp [storeByte, memWrite1_of_lt s _ h]

theorem storeByte_eq_next {index : Nat} {b : Byte} {n : BitVec 6} {s t : State} (h : storeByte index b n s = .next t) :
    index < 43 ∧ t = (s.setBuffer (writeCell s.buffer index (storedByte s b))).setFill n := by
  by_cases hi : index < 43
  · rw [storeByte_of_lt hi] at h
    cases h
    exact ⟨hi, rfl⟩
  · simp [storeByte, memWrite1, hi] at h

end Sys2Proof.Machine
end

