-- ==== Sys2Proof/Laws/Frame.lean ====
section
/-! SUPPORT. What the operands of the frame-level operations are when the buffer holds a frame: one lemma for each field, the two
checksums, and the slot scan. -/

namespace Sys2Proof.Machine

variable {s : State} {f : Nat → Byte}

theorem HoldsFrame.memRead1 (h : HoldsFrame s f) {k : Nat} (hk : k < 43) : memRead1 s k = .ok (f k) :=
  memRead1_eq_ok hk (h k hk)

theorem HoldsFrame.memRead2 (h : HoldsFrame s f) {k : Nat} (hk : k + 1 < 43) :
    Machine.memRead2 s k = .ok (f (k + 1) ++ f k) :=
  memRead2_eq_ok hk (h k (by omega)) (h (k + 1) hk)

theorem HoldsFrame.countField (h : HoldsFrame s f) : Machine.countField s = some (f 41) := h 41 (by decide)

theorem HoldsFrame.csumField (h : HoldsFrame s f) : Machine.csumField s = .ok (f 42) := h.memRead1 (by decide)

theorem HoldsFrame.headerField (h : HoldsFrame s f) : Machine.headerField s = .ok (f 1 ++ f 0) := h.memRead2 (by decide)

theorem slotBase_eq (i : Fin 6) : slotBase i = 5 + 6 * i.val := rfl

theorem HoldsFrame.idField (h : HoldsFrame s f) (i : Fin 6) : Machine.idField s i = .ok (f (6 + 6 * i.val)) := by
  have hi := i.isLt
  have e : slotBase i + 1 = 6 + 6 * i.val := by rw [slotBase_eq]; omega
  rw [Machine.idField, e]
  exact h.memRead1 (by omega)

/-- The record of a slot, byte by byte (R62, R122). -/
theorem HoldsFrame.recordOf (h : HoldsFrame s f) (i : Fin 6) :
    Machine.recordOf s i = .ok { status := f (5 + 6 * i.val)
                                 x := f (5 + 6 * i.val + 3) ++ f (5 + 6 * i.val + 2)
                                 y := f (5 + 6 * i.val + 5) ++ f (5 + 6 * i.val + 4) } := by
  have hi := i.isLt
  have h1 : statusField s i = .ok (f (5 + 6 * i.val)) := h.memRead1 (by rw [slotBase_eq]; omega)
  have h2 : xField s i = .ok (f (5 + 6 * i.val + 3) ++ f (5 + 6 * i.val + 2)) := h.memRead2 (by rw [slotBase_eq]; omega)
  have h3 : yField s i = .ok (f (5 + 6 * i.val + 5) ++ f (5 + 6 * i.val + 4)) := h.memRead2 (by rw [slotBase_eq]; omega)
  simp only [Machine.recordOf, h1, h2, h3]

theorem HoldsFrame.foldCells (h : HoldsFrame s f) (op : Byte → Byte → Byte) (acc : Byte) {ks : List Nat}
    (hk : ∀ k ∈ ks, k < 43) : Machine.foldCells op s acc ks = .ok (ks.foldl (fun c k => op c (f k)) acc) := by
  induction ks generalizing acc with
  | nil => rfl
  | cons k ks ih =>
    simp only [List.mem_cons, forall_eq_or_imp] at hk
    simp only [Machine.foldCells, h.memRead1 hk.1, List.foldl_cons]
    exact ih _ hk.2

/-- The checksum reads offsets 0..41 in order from `CSUM_SEED` (R65). -/
theorem HoldsFrame.frameChecksum (h : HoldsFrame s f) (op : Byte → Byte → Byte) :
    Machine.frameChecksum op s = .ok ((List.range 42).foldl (fun c k => op c (f k)) s.params.csumSeed) :=
  h.foldCells op _ (by intro k hk; have := List.mem_range.mp hk; simp only [Config.checksumOffset] at this; omega)

/-- The scan answers the first slot of the list whose `id` is 0 (R120). -/
theorem HoldsFrame.firstActive (h : HoldsFrame s f) (l : List (Fin 6)) :
    Machine.firstActive s l = .ok (l.find? (fun i => f (6 + 6 * i.val) == 0x00)) := by
  induction l with
  | nil => rfl
  | cons i l ih =>
    rw [Machine.firstActive, h.idField i, List.find?_cons]
    by_cases hv : f (6 + 6 * i.val) = 0x00
    · simp [hv, Config.activeId]
    · have hb : (f (6 + 6 * i.val) == 0x00) = false := by simpa using hv
      have ha : ¬ f (6 + 6 * i.val) = Config.activeId := hv
      simp only [hb, if_neg ha]
      exact ih

/-- The scan as a scan of slot numbers. -/
theorem find_slot (p : Nat → Bool) :
    ([0, 1, 2, 3, 4, 5] : List Nat).find? p = (allSlots.find? (fun i => p i.val)).map Fin.val := by
  simp only [allSlots, List.find?_cons, List.find?_nil]
  cases h0 : p 0 <;> cases h1 : p 1 <;> cases h2 : p 2 <;> cases h3 : p 3 <;> cases h4 : p 4 <;> cases h5 : p 5 <;>
    simp [h0, h1, h2, h3, h4, h5]

/-- A frame with its last byte stored. -/
theorem holdsFrame_store_last {b : Byte} (h : HoldsFrameBut s f) :
    ∀ k, k < 43 → readCell (writeCell s.buffer 42 b) k = some (if k = 42 then b else f k) := by
  intro k hk
  rw [readCell_writeCell]
  by_cases h42 : k = 42
  · simp [h42]
  · simp only [h42, if_false]
    exact h k (by omega)

end Sys2Proof.Machine
end

