-- ==== Sys2Proof/Laws/Decoder.lean ====
section
/-! SUPPORT. What the shared operations of the decoder can do, said once: on a buffer that holds a frame, what they answer; on any state,
what a next state of theirs shares with the state before. -/

namespace Sys2Proof.Machine

variable {s t u : State} {f : Nat → Byte}

/-! ### The header and the mask -/

/-- Both permitted masks keep the first signature byte (R43, R63). -/
theorem hdr0_masked {p : Params} (h : p.permitted = true) : (0x02 : Byte) &&& p.dataMask = 0x02 := by
  simp only [Params.permitted, Bool.and_eq_true, Bool.or_eq_true, beq_iff_eq] at h
  rcases h.1 with h | h <;> rw [h] <;> rfl

/-- Both permitted masks keep the second signature byte (R43, R63). -/
theorem hdr1_masked {p : Params} (h : p.permitted = true) : (0x05 : Byte) &&& p.dataMask = 0x05 := by
  simp only [Params.permitted, Bool.and_eq_true, Bool.or_eq_true, beq_iff_eq] at h
  rcases h.1 with h | h <;> rw [h] <;> rfl

/-- The permitted seed is 0 (R8). -/
theorem seed_zero {p : Params} (h : p.permitted = true) : p.csumSeed = 0 := by
  simp only [Params.permitted, Bool.and_eq_true, beq_iff_eq] at h
  exact h.2

/-- The header pair is the signature exactly when each of its bytes is (R45, R63). -/
theorem header_eq_signature (hi lo : Byte) : (hi ++ lo : BitVec 16) = 0x0502 ↔ (lo = 0x02 ∧ hi = 0x05) := by
  constructor
  · intro h
    constructor
    · have := congrArg (BitVec.extractLsb' 0 8) h
      rw [BitVec.extractLsb'_append_eq_of_add_le (by decide)] at this
      simpa using this
    · have := congrArg (BitVec.extractLsb' 8 8) h
      rw [BitVec.extractLsb'_append_eq_of_le (by decide)] at this
      simpa using this
  · rintro ⟨rfl, rfl⟩
    rfl

/-! ### On a buffer that holds a frame -/

/-- The comparison of the checksum byte and its policy (R112, R113). -/
theorem HoldsFrame.settleChecksum (h : HoldsFrame s f) (c : Byte) :
    Machine.settleChecksum c s
      = .next (if c = f 42 then .going () s
               else if checksumRejects s then .ended (raiseMismatch c (f 42) s)
               else .going () (raiseMismatch c (f 42) s)) := by
  rw [Machine.settleChecksum, h.csumField, withRead_ok]
  split <;> [rfl; (split <;> rfl)]

/-- A checksum operation on a frame: its fold, settled (R65). -/
theorem HoldsFrame.checksumBy (h : HoldsFrame s f) (hs : Specified s) (op : Byte → Byte → Byte) :
    Machine.checksumBy op s
      = Machine.settleChecksum ((List.range 42).foldl (fun c k => op c (f k)) s.params.csumSeed) s := by
  rw [Machine.checksumBy, inSession_of_specified hs, h.frameChecksum, withRead_ok]

/-- The slot scan on a frame (R120, R121). -/
theorem HoldsFrame.selectSlot (h : HoldsFrame s f) (hs : Specified s) :
    Machine.selectSlot s
      = .next (match allSlots.find? (fun i => f (6 + 6 * i.val) == 0x00) with
               | some i => .going i s
               | none => .ended (raise .noActiveContact s)) := by
  rw [Machine.selectSlot, inSession_of_specified hs, h.firstActive, withRead_ok]
  cases List.find? _ allSlots <;> rfl

/-- The pen-state operation of a status byte is the transition of R135. -/
theorem runPenOperation_eq (hs : Specified s) (status : Byte) :
    runPenOperation status s = .next (s.setPen (penTransition s.variant status s.penDown)) := by
  have keep : s.setPen s.penDown = s := rfl
  unfold runPenOperation
  cases hv : s.variant
  · simp [Specified, hv, Variant.specified] at hs
  · simp only [penTransition]
    by_cases h : status = 0x02
    · rw [if_pos h, if_pos (show status = Config.stToggleA from h), execPenToggleA, inSession_of_specified hs]
    · rw [if_neg h, if_neg (show ¬ status = Config.stToggleA from h), execPenHoldA, inSession_of_specified hs, keep]
  · simp only [penTransition]
    by_cases h : status = 0x03
    · rw [if_pos h, if_pos (show status = Config.stDownB from h), execPenDownB, inSession_of_specified hs]
      split
      · rfl
      · rename_i hp
        rw [show s.setPen true = s by rw [← Bool.eq_true_of_not_eq_false hp, keep]]
    · rw [if_neg h, if_neg (show ¬ status = Config.stDownB from h)]
      by_cases h0 : status = 0x00
      · rw [if_pos h0, if_pos (show status = Config.stUpB from h0), execPenUpB, inSession_of_specified hs]
      · rw [if_neg h0, if_neg (show ¬ status = Config.stUpB from h0), execPenHoldB, inSession_of_specified hs, keep]
  · simp [Specified, hv, Variant.specified] at hs

/-! ### What a successful read says -/

/-- A fold over cells that answers a value has read every one of them. -/
theorem foldCells_reads {op : Byte → Byte → Byte} {acc c : Byte} {ks : List Nat} (h : foldCells op s acc ks = .ok c) :
    ∀ k ∈ ks, ∃ v, readCell s.buffer k = some v := by
  induction ks generalizing acc with
  | nil => simp
  | cons k ks ih =>
    simp only [foldCells] at h
    cases hk : memRead1 s k with
    | error e => rw [hk] at h; cases h
    | ok v =>
      rw [hk] at h
      intro k' hk'
      rcases List.mem_cons.mp hk' with rfl | hm
      · exact ⟨v, ((memRead1_eq_ok_iff s _ v).mp hk).2⟩
      · exact ih h _ hm

/-- A checksum operation that answers has read the 43 cells of a frame. -/
theorem checksumBy_holdsFrame {op : Byte → Byte → Byte} {p : Progress Unit} (h : checksumBy op s = .next p) :
    ∃ f, HoldsFrame s f := by
  obtain ⟨c, hc, ht⟩ := withRead_eq_next (inSession_eq_next h).2
  obtain ⟨v, hv, _⟩ := withRead_eq_next ht
  have h42 : readCell s.buffer 42 = some v := ((memRead1_eq_ok_iff s _ v).mp hv).2
  have h41 := foldCells_reads hc
  refine ⟨fun k => (readCell s.buffer k).getD 0, fun k hk => ?_⟩
  by_cases e : k = 42
  · subst e
    simp [h42]
  · obtain ⟨v, hv⟩ := h41 k (by simp [Config.checksumOffset]; omega)
    simp [hv]

theorem runChecksum_holdsFrame {p : Progress Unit} (h : runChecksum s = .next p) : ∃ f, HoldsFrame s f := by
  unfold runChecksum at h
  cases hv : s.variant <;> simp only [hv] at h
  · cases h
  · exact checksumBy_holdsFrame h
  · exact checksumBy_holdsFrame h
  · cases h

/-! ### What the decoder leaves alone -/

/-- What no operation of the decoder changes: the buffer, the position, the configuration, the parameters and the edges to come. -/
structure DecoderFrame (s t : State) : Prop where
  buffer    : t.buffer = s.buffer
  fillCount : t.fillCount = s.fillCount
  cfg       : t.cfg = s.cfg
  params    : t.params = s.params
  inputs    : t.inputs = s.inputs

theorem DecoderFrame.refl (s : State) : DecoderFrame s s := ⟨rfl, rfl, rfl, rfl, rfl⟩

theorem DecoderFrame.trans (a : DecoderFrame s t) (b : DecoderFrame t u) : DecoderFrame s u :=
  ⟨b.1.trans a.1, b.2.trans a.2, b.3.trans a.3, b.4.trans a.4, b.5.trans a.5⟩

section Progress

variable {α β : Type} {p : Progress α}

/-- The state an operation leaves, whether or not the decoding goes on. -/
theorem whileGoing_frame {o : Answer (Progress α)} {k : α → State → Answer (Progress β)} {q : Progress β}
    (ho : ∀ p, o = .next p → DecoderFrame s p.state)
    (hk : ∀ a u q, k a u = .next q → DecoderFrame u q.state) (h : whileGoing o k = .next q) : DecoderFrame s q.state := by
  rcases whileGoing_eq_next h with ⟨u, hu, rfl⟩ | ⟨a, u, hu, h⟩
  · exact ho _ hu
  · exact (ho _ hu).trans (hk _ _ _ h)

theorem stateOf_frame {o : Answer (Progress α)} (ho : ∀ p, o = .next p → DecoderFrame s p.state) (h : stateOf o = .next t) :
    DecoderFrame s t := by
  obtain ⟨p, hp, rfl⟩ := stateOf_eq_next h
  exact ho p hp

end Progress

theorem lenGuard_frame {n : BitVec 6} {p : Progress Unit} (h : lenGuard n s = .next p) : DecoderFrame s p.state := by
  obtain ⟨_, h⟩ := inSession_eq_next h
  cases h
  split <;> exact .refl s

theorem checksumBy_frame {op : Byte → Byte → Byte} {p : Progress Unit} (h : checksumBy op s = .next p) :
    DecoderFrame s p.state := by
  obtain ⟨_, _, h⟩ := withRead_eq_next (inSession_eq_next h).2
  obtain ⟨_, _, h⟩ := withRead_eq_next h
  split_ifs at h <;> cases h <;> exact ⟨rfl, rfl, rfl, rfl, rfl⟩

theorem runChecksum_frame {p : Progress Unit} (h : runChecksum s = .next p) : DecoderFrame s p.state := by
  unfold runChecksum at h
  cases hv : s.variant <;> simp only [hv] at h
  · cases h
  · exact checksumBy_frame h
  · exact checksumBy_frame h
  · cases h

theorem selectSlot_frame {p : Progress (Fin 6)} (h : selectSlot s = .next p) : DecoderFrame s p.state := by
  obtain ⟨v, _, h⟩ := withRead_eq_next (inSession_eq_next h).2
  cases v <;> cases h <;> exact ⟨rfl, rfl, rfl, rfl, rfl⟩

theorem extractRecord_frame {i : Fin 6} {p : Progress ContactRecord} (h : extractRecord i s = .next p) :
    DecoderFrame s p.state := by
  obtain ⟨v, _, h⟩ := withRead_eq_next (inSession_eq_next h).2
  cases h
  exact .refl s

theorem runPenOperation_frame {status : Byte} (h : runPenOperation status s = .next t) : DecoderFrame s t := by
  have hs : Specified s := by
    unfold Specified
    unfold runPenOperation at h
    cases hv : s.variant <;> simp only [hv] at h <;> first | rfl | cases h
  rw [runPenOperation_eq hs] at h
  cases h
  exact ⟨rfl, rfl, rfl, rfl, rfl⟩

theorem reportRecord_frame {r : ContactRecord} {p : Progress Unit} (h : reportRecord r s = .next p) : DecoderFrame s p.state := by
  obtain ⟨u, hu, h⟩ := andThen_eq_next h
  obtain ⟨v, hv, h⟩ := andThen_eq_next h
  obtain ⟨_, hv⟩ := inSession_eq_next hv
  cases hv
  cases h
  exact (runPenOperation_frame hu).trans ⟨rfl, rfl, rfl, rfl, rfl⟩

theorem decodeSequence_frame {n : BitVec 6} {p : Progress Unit} (h : decodeSequence n s = .next p) : DecoderFrame s p.state :=
  whileGoing_frame (fun _ h => lenGuard_frame h)
    (fun _ _ _ h => whileGoing_frame (fun _ h => runChecksum_frame h)
      (fun _ _ _ h => whileGoing_frame (fun _ h => selectSlot_frame h)
        (fun _ _ _ h => whileGoing_frame (fun _ h => extractRecord_frame h) (fun _ _ _ h => reportRecord_frame h) h) h) h) h

theorem execDecode_frame {n : BitVec 6} (h : execDecode n s = .next t) : DecoderFrame s t := by
  obtain ⟨_, h⟩ := inSession_eq_next h
  have := stateOf_frame (fun _ h => decodeSequence_frame h) h
  exact ⟨this.1, this.2, this.3, this.4, this.5⟩

theorem frameCheck_frame (h : frameCheck s = .next t) :
    t.buffer = s.buffer ∧ t.cfg = s.cfg ∧ t.params = s.params ∧ t.inputs = s.inputs := by
  obtain ⟨v, _, h⟩ := withRead_eq_next h
  split_ifs at h
  · have := execDecode_frame (inSession_eq_next h).2
    exact ⟨this.1, this.3, this.4, this.5⟩
  · obtain ⟨_, h⟩ := inSession_eq_next h
    cases h
    exact ⟨rfl, rfl, rfl, rfl⟩

end Sys2Proof.Machine
end

