-- ==== Sys2Proof/Laws/PerInstr.lean ====
section
/-! SUPPORT. Per-operation lemmas about the syntax: the unit an operation is encoded in is of its row's format, and it is a unit that its
position reads (R68, R77). -/

namespace Sys2Proof.Laws

/-- The operation's unit is of its row's format, and its position never rejects it as a unit it does not read. -/
def EncodesInFormat.Statement (i : Instr) : Prop :=
  (encode i).format = i.format ∧ ∀ c : Context, decodeAt i.position c (encode i) ≠ .error .wrongUnit

/-- A byte unit at the byte level is read. -/
theorem byteStep_reads (c : Context) (b : Byte) : decodeAt .byteStep c (.byte b) ≠ .error .wrongUnit := by
  simp [decodeAt]

/-- A status unit at the pen position is read, whatever the variant. -/
theorem pen_reads (c : Context) (v : Byte) : decodeAt .pen c (.status v) ≠ .error .wrongUnit := by
  cases h : variantOfBits c.variant <;> simp [decodeAt, decodePen, h]

/-- The frame at the checksum position is read, whatever the variant. -/
theorem checksum_reads (c : Context) : decodeAt .checksum c .frame ≠ .error .wrongUnit := by
  cases h : variantOfBits c.variant <;> simp [decodeAt, decodeChecksum, h]

theorem EncodesInFormat.overflow (b : Byte) : EncodesInFormat.Statement (.overflow b) := ⟨rfl, fun c => byteStep_reads c _⟩

theorem EncodesInFormat.hdr0Accept : EncodesInFormat.Statement .hdr0Accept := ⟨rfl, fun c => byteStep_reads c _⟩

theorem EncodesInFormat.hdr0Skip (b : Byte) : EncodesInFormat.Statement (.hdr0Skip b) := ⟨rfl, fun c => byteStep_reads c _⟩

theorem EncodesInFormat.hdr1Accept : EncodesInFormat.Statement .hdr1Accept := ⟨rfl, fun c => byteStep_reads c _⟩

theorem EncodesInFormat.hdr1Resync (b : Byte) : EncodesInFormat.Statement (.hdr1Resync b) := ⟨rfl, fun c => byteStep_reads c _⟩

theorem EncodesInFormat.append (b : Byte) : EncodesInFormat.Statement (.append b) := ⟨rfl, fun c => byteStep_reads c _⟩

theorem EncodesInFormat.appendLast (b : Byte) : EncodesInFormat.Statement (.appendLast b) := ⟨rfl, fun c => byteStep_reads c _⟩

theorem EncodesInFormat.feed (b : Byte) : EncodesInFormat.Statement (.feed b) := ⟨rfl, fun _ => by simp [decodeAt, encode, Instr.position]⟩

theorem EncodesInFormat.frameReady : EncodesInFormat.Statement .frameReady := ⟨rfl, fun _ => by simp [decodeAt, encode, Instr.position]⟩

theorem EncodesInFormat.frameDrop (h : HeaderPair) : EncodesInFormat.Statement (.frameDrop h) := ⟨rfl, fun _ => by simp [decodeAt, encode, Instr.position]⟩

theorem EncodesInFormat.lenGuard (n : BitVec 6) : EncodesInFormat.Statement (.lenGuard n) := ⟨rfl, fun _ => by simp [decodeAt, encode, Instr.position]⟩

theorem EncodesInFormat.csumXor : EncodesInFormat.Statement .csumXor := ⟨rfl, checksum_reads⟩

theorem EncodesInFormat.csumAdd : EncodesInFormat.Statement .csumAdd := ⟨rfl, checksum_reads⟩

theorem EncodesInFormat.select : EncodesInFormat.Statement .select := ⟨rfl, fun _ => by simp [decodeAt, encode, Instr.position]⟩

theorem EncodesInFormat.extract (i : Fin 6) : EncodesInFormat.Statement (.extract i) := ⟨rfl, fun _ => by simp [decodeAt, encode, Instr.position]⟩

theorem EncodesInFormat.penToggleA : EncodesInFormat.Statement .penToggleA := ⟨rfl, fun c => pen_reads c _⟩

theorem EncodesInFormat.penHoldA (v : Byte) : EncodesInFormat.Statement (.penHoldA v) := ⟨rfl, fun c => pen_reads c _⟩

theorem EncodesInFormat.penDownB : EncodesInFormat.Statement .penDownB := ⟨rfl, fun c => pen_reads c _⟩

theorem EncodesInFormat.penUpB : EncodesInFormat.Statement .penUpB := ⟨rfl, fun c => pen_reads c _⟩

theorem EncodesInFormat.penHoldB (v : Byte) : EncodesInFormat.Statement (.penHoldB v) := ⟨rfl, fun c => pen_reads c _⟩

theorem EncodesInFormat.emit (x y : Coord) : EncodesInFormat.Statement (.emit x y) := ⟨rfl, fun _ => by simp [decodeAt, encode, Instr.position]⟩

theorem EncodesInFormat.decode (n : BitVec 6) : EncodesInFormat.Statement (.decode n) := ⟨rfl, fun _ => by simp [decodeAt, encode, Instr.position]⟩

theorem EncodesInFormat.legacyRefuse : EncodesInFormat.Statement .legacyRefuse := ⟨rfl, fun _ h => by cases h⟩

theorem EncodesInFormat.reservedRefuse : EncodesInFormat.Statement .reservedRefuse := ⟨rfl, fun _ h => by cases h⟩

end Sys2Proof.Laws
end

