-- ==== Sys2Proof/Laws/Run.lean ====
section
/-! SUPPORT. The register `CFG`, the byte decoder in a specified session, what each kind of clock edge does, and runs put together. -/

namespace Sys2Proof.Machine

/-! ### CFG -/

theorem cfgVariantBits_packCfg (v : BitVec 2) (b : Bool) : cfgVariantBits (packCfg v b) = v := by
  revert v b
  decide

theorem cfgVerboseBit_packCfg (v : BitVec 2) (b : Bool) : cfgVerboseBit (packCfg v b) = b := by
  revert v b
  decide

/-! ### The byte decoder -/

/-- In a specified configuration the byte decoder is the chain of R60. -/
theorem decodeByte_of_specified {c : Context} (h : (variantOfBits c.variant).specified = true) (b : Byte) :
    decodeByte c b
      = if 43 ≤ c.fillCount.toNat then .overflow b
        else if c.fillCount.toNat = 0 then (if b = Config.hdr0 then .hdr0Accept else .hdr0Skip b)
        else if c.fillCount.toNat = 1 then (if b = Config.hdr1 then .hdr1Accept else .hdr1Resync b)
        else if c.fillCount.toNat ≤ 41 then .append b
        else .appendLast b := by
  unfold decodeByte
  cases hv : variantOfBits c.variant
  · rw [hv] at h; cases h
  · rfl
  · rfl
  · rw [hv] at h; cases h

/-! ### The kinds of clock edge -/

theorem step_of_create {s : State} {v : BitVec 2} {vb : Bool} (h : edgeAction (nextEdge s) = .create v vb) :
    step s = .next (createSession v vb (afterEdge s)) := by
  simp only [step, h]

theorem step_of_idle {s : State} (h : edgeAction (nextEdge s) = .idle) : step s = .next (idleEdge (afterEdge s)) := by
  simp only [step, h]

theorem step_of_deliver {s : State} {b : Byte} (h : edgeAction (nextEdge s) = .deliver b) :
    step s = exec (decodeByte (afterEdge s).context b) (afterEdge s) := by
  simp only [step, h]

/-! ### Runs -/

theorem feedAll_nil (s : State) : feedAll [] s = .next s := rfl

theorem feedAll_cons (b : Byte) (bs : List Byte) (s : State) :
    feedAll (b :: bs) s = andThen (step (s.setInputs [Edge.byte b])) (feedAll bs) := rfl

theorem runEdges_succ (n : Nat) (s : State) : runEdges (n + 1) s = andThen (step s) (runEdges n) := rfl

theorem edgeAction_byte (b : Byte) : edgeAction (Edge.byte b) = .deliver b := rfl

theorem feedAll_append (l m : List Byte) (s : State) : feedAll (l ++ m) s = andThen (feedAll l s) (feedAll m) := by
  induction l generalizing s with
  | nil => rfl
  | cons b l ih =>
    simp only [List.cons_append, feedAll]
    cases step (s.setInputs [Edge.byte b]) with
    | next t => simp only [andThen_next]; exact ih t
    | fault f => rfl
    | refused r => rfl

theorem hunt_append (k : Nat) (l m : List Byte) : hunt k (l ++ m) = hunt (hunt k l) m := List.foldl_append

end Sys2Proof.Machine
end

