-- ==== Sys2Proof/Tests/Slice0.lean ====
section
/-! SUPPORT. The model's own tests: ill-formed terms, words written out from spec/30_encoding.md, single steps whose expected results are
those of spec/95_test_vectors.md, and for every statement with hypotheses a state and operands that meet them. -/

namespace Sys2Proof.Tests

open Sys2Proof Sys2Proof.Machine

/-! ### States for the tests -/

/-- Bytes stored from a cell on, masked. -/
def cellsFrom (p : Params) : Nat → List Byte → Memory
  | _, [] => []
  | k, b :: bs => (k, b &&& p.dataMask) :: cellsFrom p (k + 1) bs

/-- The 42 bytes of a frame before its checksum: the bytes given and then zeros. -/
def body (head : List Byte) : List Byte := head ++ List.replicate (42 - head.length) 0x00

/-- A frame as a function of the offset, its bytes as they are stored. -/
def frameOf (p : Params) (head : List Byte) (csum : Byte) : Nat → Byte :=
  fun k => (body head ++ [csum]).getD k 0x00 &&& p.dataMask

/-- A session at a position, its buffer empty. -/
def atFill (variant : BitVec 2) (fill : BitVec 6) : State := (State.reset.setCfg (packCfg variant true)).setFill fill

/-- The parameters with another policy or mask. -/
def rejectNone : Params := { Params.hardware with csumRejectA := false }
def rejectBoth : Params := { Params.hardware with csumRejectB := true }
def wide : Params := { Params.hardware with dataMask := 0xFF }

/-- 42 bytes of a frame are stored; the checksum byte is to come. -/
def almost (variant : BitVec 2) (pen : Bool) (p : Params) (head : List Byte) : State :=
  ((((atFill variant 42).setPen pen).setParams p).setBuffer (cellsFrom p 0 (body head)))

/-- All 43 bytes of a frame are stored. -/
def full (variant : BitVec 2) (pen : Bool) (p : Params) (head : List Byte) (csum : Byte) : State :=
  ((((atFill variant 0).setPen pen).setParams p).setBuffer (cellsFrom p 0 (body head ++ [csum])))

/-- The edge that delivers a byte comes next. -/
def given (b : Byte) (s : State) : State := s.setInputs [Edge.byte b]

/-- What a test looks at. -/
structure Shown where
  outcome : Option FrameOutcome
  event   : Option TouchEvent
  flags   : BitVec 4
  count   : Option Byte
  pen     : Bool
  fill    : BitVec 6
deriving DecidableEq, Repr

/-- What a step shows: outcome, event, flags, count, pen and position. -/
def shown (o : Answer State) : Option Shown :=
  match o with
  | .next t => some ⟨t.out.outcome, t.out.event, t.out.diag.flagBits, t.out.diag.count.join, t.penDown, t.fillCount⟩
  | .fault _ => none
  | .refused _ => none

/-- One cell after a step. -/
def cellAfter (o : Answer State) (k : Nat) : Option Byte :=
  match o with
  | .next t => readCell t.buffer k
  | .fault _ => none
  | .refused _ => none

/-- The next state of a step that has one. -/
def nextOf (o : Answer State) : State :=
  match o with
  | .next t => t
  | .fault _ => State.reset
  | .refused _ => State.reset

/-- The step answers a next state. -/
def completes (o : Answer State) : Bool :=
  match o with
  | .next _ => true
  | .fault _ => false
  | .refused _ => false

theorem next_of_completes {o : Answer State} (h : completes o = true) : o = .next (nextOf o) := by
  cases o with
  | next t => rfl
  | fault f => cases h
  | refused r => cases h

def ev (x y : Coord) (p : Bool) : Option TouchEvent := some { x := x, y := y, penDown := p }

/-- `F` of E1, without its checksum 2B. -/
def headF : List Byte := [0x02, 0x05, 0x00, 0x00, 0x00, 0x00, 0x00, 0x64, 0x00, 0x48]

/-- `FRAME_v{s0=(status,00,1,1)}` of the pen vectors. -/
def headP (status : Byte) : List Byte := [0x02, 0x05, 0x00, 0x00, 0x00, status, 0x00, 0x01, 0x00, 0x01, 0x00]

/-- `FRAME_v{s0=(status,00,5,6)}` of K3 and K5. -/
def headK (status : Byte) : List Byte := [0x02, 0x05, 0x00, 0x00, 0x00, status, 0x00, 0x05, 0x00, 0x06, 0x00]

/-- Six slots that are not eligible, of X1. -/
def headX1 : List Byte :=
  [0x02, 0x05, 0x00, 0x00, 0x00] ++ [0x00, 0x01, 0x00, 0x00, 0x00, 0x00] ++ [0x00, 0x01, 0x00, 0x00, 0x00, 0x00]
    ++ [0x00, 0x01, 0x00, 0x00, 0x00, 0x00] ++ [0x00, 0x01, 0x00, 0x00, 0x00, 0x00] ++ [0x00, 0x01, 0x00, 0x00, 0x00, 0x00]
    ++ [0x00, 0x01, 0x00, 0x00, 0x00, 0x00]

/-- The frame of X2: only slot 5 is eligible. -/
def headX2 : List Byte :=
  [0x02, 0x05, 0x00, 0x00, 0x00] ++ [0x01, 0x01, 0x01, 0x00, 0x01, 0x00] ++ [0x01, 0x02, 0x02, 0x00, 0x02, 0x00]
    ++ [0x01, 0x03, 0x03, 0x00, 0x03, 0x00] ++ [0x01, 0x04, 0x04, 0x00, 0x04, 0x00] ++ [0x01, 0x05, 0x05, 0x00, 0x05, 0x00]
    ++ [0x03, 0x00, 0x12, 0x01, 0x21, 0x02]

/-! ### Well-formedness: an ill-formed term for each check (R77) -/

theorem test_ill_formed_hdr0Skip : (Instr.hdr0Skip 0x02).wellFormed = false := by decide
theorem test_ill_formed_hdr1Resync : (Instr.hdr1Resync 0x05).wellFormed = false := by decide
theorem test_ill_formed_frameDrop : (Instr.frameDrop 0x0502).wellFormed = false := by decide
theorem test_ill_formed_penHoldA : (Instr.penHoldA 0x02).wellFormed = false := by decide
theorem test_ill_formed_penHoldB : (Instr.penHoldB 0x03).wellFormed = false ∧ (Instr.penHoldB 0x00).wellFormed = false := by decide

/-! ### Decoding: words written out from the tables of 30_encoding.md -/

theorem test_word_overflow : decodeByte { variant := 0b11, fillCount := 63 } 0b00000010 = .overflow 0x02 := by decide
theorem test_word_hdr0Accept : decodeByte { variant := 0b11, fillCount := 0 } 0b00000010 = .hdr0Accept := by decide
theorem test_word_hdr0Skip : decodeByte { variant := 0b01, fillCount := 0 } 0b00000101 = .hdr0Skip 0x05 := by decide
theorem test_word_hdr1Accept : decodeByte { variant := 0b01, fillCount := 1 } 0b00000101 = .hdr1Accept := by decide
theorem test_word_hdr1Resync : decodeByte { variant := 0b01, fillCount := 1 } 0b10000101 = .hdr1Resync 0x85 := by decide
theorem test_word_append : decodeByte { variant := 0b01, fillCount := 2 } 0b11001000 = .append 0xC8 := by decide
theorem test_word_appendLast : decodeByte { variant := 0b11, fillCount := 42 } 0b00101011 = .appendLast 0x2B := by decide
theorem test_word_feed : decodeAt .feed resetContext (.byte 0b00000010) = .ok (.feed 0x02) := by decide
theorem test_word_frameReady : decodeHeader 0b0000010100000010 = .frameReady := by decide
theorem test_word_frameDrop : decodeHeader 0b0000001000000101 = .frameDrop 0x0205 := by decide
theorem test_word_lenGuard : decodeAt .lenGuard resetContext (.length 0b000001) = .ok (.lenGuard 1) := by decide
theorem test_word_csumXor : decodeAt .checksum { variant := 0b01, fillCount := 43 } .frame = .ok .csumXor := by decide
theorem test_word_csumAdd : decodeAt .checksum { variant := 0b11, fillCount := 43 } .frame = .ok .csumAdd := by decide
theorem test_word_select : decodeAt .select resetContext .frame = .ok .select := by decide
theorem test_word_extract : decodeAt .extract resetContext (.slot 5) = .ok (.extract 5) := by decide
theorem test_word_penToggleA : decodePen .revisionA 0b00000010 = .ok .penToggleA := by decide
theorem test_word_penHoldA : decodePen .revisionA 0b00000011 = .ok (.penHoldA 0x03) := by decide
theorem test_word_penDownB : decodePen .revisionB 0b00000011 = .ok .penDownB := by decide
theorem test_word_penUpB : decodePen .revisionB 0b00000000 = .ok .penUpB := by decide
theorem test_word_penHoldB : decodePen .revisionB 0b00000010 = .ok (.penHoldB 0x02) := by decide
theorem test_word_emit : decodeAt .emit resetContext (.point 100 72) = .ok (.emit 100 72) := by decide
theorem test_word_decode : decodeAt .decode resetContext (.length 43) = .ok (.decode 43) := by decide
theorem test_word_legacyRefuse : decodeConfig (variantOfBits 0b00) = .ok .legacyRefuse := by decide
theorem test_word_reservedRefuse : decodeConfig (variantOfBits 0b10) = .ok .reservedRefuse := by decide
theorem test_word_of_nothing : decodeStream resetContext [] = .error .noByteDelivered := by decide

/-- The host's numbering: one byte in bits 7..0; a frame with offset 0 in bits 7..0 and offset 1 in bits 15..8 (R61). -/
theorem test_table_word_byte : decodeTableWord 8 0b00000010 = some .hdr0Accept ∧ decodeTableWord 8 0 = some (.hdr0Skip 0x00) := by
  decide
theorem test_table_word_frame : decodeTableWord 344 0x0502 = some .frameReady ∧ decodeTableWord 344 0 = some (.frameDrop 0x0000) := by
  decide
theorem test_fetch_byte : shown (step (State.reset.withFetchWord 8 0x02)) = shown (exec .hdr0Accept State.reset) := by decide +kernel
theorem test_fetch_frame :
    (shown (step (State.reset.withFetchWord 344 0x0502))).map (·.outcome) = some (some .frameReady)
      ∧ (shown (step (State.reset.withFetchWord 344 0))).map (·.outcome) = some (some .resynced) := by decide +kernel

/-! ### Single steps: spec/95_test_vectors.md -/

theorem test_A1 : shown (step (given 0x00 (atFill 0b01 0))) = some ⟨some .incomplete, none, 0b0001, none, false, 0⟩ := by decide +kernel
theorem test_A2 : shown (step (given 0x82 (atFill 0b01 0))) = some ⟨some .incomplete, none, 0b0001, none, false, 0⟩ := by decide +kernel
theorem test_A3 : shown (step (given 0x02 (atFill 0b01 0))) = some ⟨some .incomplete, none, 0, none, false, 1⟩
    ∧ cellAfter (step (given 0x02 (atFill 0b01 0))) 0 = some 0x02 := by decide +kernel
theorem test_A4 : shown (step (given 0x05 (atFill 0b01 1))) = some ⟨some .incomplete, none, 0, none, false, 2⟩
    ∧ cellAfter (step (given 0x05 (atFill 0b01 1))) 1 = some 0x05 := by decide +kernel
theorem test_A5 : shown (step (given 0x02 (atFill 0b01 1))) = some ⟨some .resynced, none, 0b0001, none, false, 0⟩ := by decide +kernel
theorem test_A6 : shown (step (given 0x85 (atFill 0b01 1))) = some ⟨some .resynced, none, 0b0001, none, false, 0⟩ := by decide +kernel
theorem test_A7 : cellAfter (step (given 0xC8 (atFill 0b01 9))) 9 = some 0x48
    ∧ cellAfter (step (given 0xC8 ((atFill 0b01 9).setParams wide))) 9 = some 0xC8 := by decide +kernel
theorem test_A8 : shown (step (given 0x02 (atFill 0b01 2))) = some ⟨some .incomplete, none, 0, none, false, 3⟩
    ∧ cellAfter (step (given 0x02 (atFill 0b01 2))) 2 = some 0x02 := by decide +kernel
theorem test_A9 : shown (step (given 0x2B (almost 0b01 false Params.hardware headF)))
    = some ⟨some .frameReady, ev 100 72 false, 0, some 0, false, 0⟩ := by decide +kernel
theorem test_A10 : shown (step (given 0x02 (atFill 0b01 43))) = some ⟨some .overflow, none, 0b0010, none, false, 0⟩ := by decide +kernel
theorem test_A11 : shown (step (given 0x00 (almost 0b01 true Params.hardware [0x03, 0x05])))
    = some ⟨some .resynced, none, 0b0001, none, true, 0⟩ := by decide +kernel

theorem test_K2 : shown (step (given 0x33 (almost 0b11 false Params.hardware headF)))
    = some ⟨some .frameReady, ev 100 72 false, 0b0100, some 0, false, 0⟩ := by decide +kernel
theorem test_K3 : shown (step (given 0x07 (almost 0b01 false Params.hardware (headK 0x02))))
    = some ⟨some .frameReady, none, 0b0100, some 0, false, 0⟩ := by decide +kernel
theorem test_K4 : shown (step (given 0x07 (almost 0b01 false rejectNone (headK 0x02))))
    = some ⟨some .frameReady, ev 5 6 true, 0b0100, some 0, true, 0⟩ := by decide +kernel
theorem test_K6 : shown (step (given 0x16 (almost 0b11 false rejectBoth (headK 0x03))))
    = some ⟨some .frameReady, none, 0b0100, some 0, false, 0⟩ := by decide +kernel
theorem test_K7 : shown (step (given 0x06 (almost 0b11 false Params.hardware
      [0x02, 0x05, 0x00, 0x00, 0x00, 0x03, 0x00, 0x7F, 0x7F, 0x7F, 0x7F])))
    = some ⟨some .frameReady, ev 32639 32639 true, 0, some 0, true, 0⟩ := by decide +kernel
theorem test_K10 : shown (step (given 0x0E (almost 0b01 false Params.hardware
      ([0x02, 0x05, 0x00, 0x00, 0x00, 0x00, 0x00, 0x07, 0x00, 0x07, 0x00] ++ List.replicate 30 0x00 ++ [0x09]))))
    = some ⟨some .frameReady, ev 7 7 false, 0, some 9, false, 0⟩ := by decide +kernel

theorem test_X1 : shown (step (given 0x0D (almost 0b11 true Params.hardware headX1)))
    = some ⟨some .frameReady, none, 0b1000, some 0, true, 0⟩ := by decide +kernel
theorem test_X2 : shown (step (given 0x72 (almost 0b11 false Params.hardware headX2)))
    = some ⟨some .frameReady, ev 274 545 true, 0, some 0, true, 0⟩ := by decide +kernel
theorem test_X6 : shown (step (given 0x87 (almost 0b01 false Params.hardware
      [0x02, 0x05, 0x00, 0x00, 0x00, 0x00, 0x80, 0x09, 0x00, 0x09, 0x00, 0x00, 0x00, 0x07, 0x00, 0x07, 0x00])))
      = some ⟨some .frameReady, ev 9 9 false, 0, some 0, false, 0⟩
    ∧ shown (step (given 0x87 (almost 0b01 false wide
      [0x02, 0x05, 0x00, 0x00, 0x00, 0x00, 0x80, 0x09, 0x00, 0x09, 0x00, 0x00, 0x00, 0x07, 0x00, 0x07, 0x00])))
      = some ⟨some .frameReady, ev 7 7 false, 0, some 0, false, 0⟩ := by decide +kernel
theorem test_X7 : shown (step (given 0x0F (almost 0b01 false Params.hardware
      [0x02, 0x05, 0x00, 0x00, 0x00, 0x00, 0x00, 0x34, 0x12, 0x78, 0x56])))
    = some ⟨some .frameReady, ev 4660 22136 false, 0, some 0, false, 0⟩ := by decide +kernel

theorem test_P1 : shown (step (given 0x05 (almost 0b01 false Params.hardware (headP 0x02))))
    = some ⟨some .frameReady, ev 1 1 true, 0, some 0, true, 0⟩ := by decide +kernel
theorem test_P2 : shown (step (given 0x05 (almost 0b01 true Params.hardware (headP 0x02))))
    = some ⟨some .frameReady, ev 1 1 false, 0, some 0, false, 0⟩ := by decide +kernel
theorem test_P4 : shown (step (given 0x07 (almost 0b01 true Params.hardware (headP 0x00))))
    = some ⟨some .frameReady, ev 1 1 true, 0, some 0, true, 0⟩ := by decide +kernel
theorem test_P7 : shown (step (given 0x0C (almost 0b11 true Params.hardware (headP 0x03))))
    = some ⟨some .frameReady, ev 1 1 true, 0, some 0, true, 0⟩ := by decide +kernel
theorem test_P8 : shown (step (given 0x09 (almost 0b11 true Params.hardware (headP 0x00))))
    = some ⟨some .frameReady, ev 1 1 false, 0, some 0, false, 0⟩ := by decide +kernel
theorem test_P12 : shown (step (given 0x0B (almost 0b11 true Params.hardware (headP 0x02))))
    = some ⟨some .frameReady, ev 1 1 true, 0, some 0, true, 0⟩ := by decide +kernel
theorem test_P14 : shown (step (given 0x0C (almost 0b11 false Params.hardware (headP 0x83))))
    = some ⟨some .frameReady, ev 1 1 true, 0, some 0, true, 0⟩ := by decide +kernel

theorem test_G6 : shown (step (given 0x0E (almost 0b11 false Params.hardware headX1)))
    = some ⟨some .frameReady, none, 0b1100, some 0, false, 0⟩ := by decide +kernel
theorem test_G7 : shown (step (given 0x06 (almost 0b01 false Params.hardware headX1)))
    = some ⟨some .frameReady, none, 0b0100, some 0, false, 0⟩ := by decide +kernel
theorem test_G9 :
    let t := nextOf (step (given 0x0E ((almost 0b11 false Params.hardware headX1).setCfg (packCfg 0b11 false))))
    (outputPorts t).diagFlags = 0 ∧ (outputPorts t).diagCountValid = false ∧ (outputPorts t).stepValid = true
      ∧ t.out.diag.flagBits = 0b1100 := by decide +kernel

/-- A byte that arrives with `rst` is lost, and the configuration is latched (R26, R180). -/
theorem test_reset_edge :
    let t := nextOf (step ((atFill 0b01 7).setInputs [{ Edge.create 0b11 false with rxValid := true, rxData := 0x02 }]))
    t.fillCount = 0 ∧ t.variant = .revisionB ∧ t.verbose = false ∧ t.out = StepOut.quiet := by decide +kernel

/-- A Legacy session refuses every byte, and a later reset edge configures the block anew (R147, R180). -/
theorem test_legacy_step : step (given 0x02 (atFill 0b00 0)) = .refused .legacySession
    ∧ (nextOf (step ((atFill 0b00 0).setInputs [Edge.create 0b01 true]))).variant = .revisionA := ⟨rfl, rfl⟩
theorem test_reserved_step : step (given 0x02 (atFill 0b10 0)) = .refused .reservedConfiguration := rfl

/-- A cell that holds no value is not read, and there is no cell 43 (R40, R188). -/
theorem test_unwritten_cell : exec .frameReady (atFill 0b01 0) = .fault (.unwrittenCell 0) := rfl
theorem test_no_such_cell : exec (.append 0x00) (atFill 0b01 43) = .fault (.noSuchCell 43) := rfl

/-! ### The invariant, checked on states written out -/

theorem mem_of_readCell {m : Memory} {k : Nat} {v : Byte} (h : readCell m k = some v) : (k, v) ∈ m := by
  induction m with
  | nil => cases h
  | cons c m ih =>
    obtain ⟨a, b⟩ := c
    simp only [readCell] at h
    split at h
    · rename_i e
      cases h
      subst e
      exact List.mem_cons_self
    · exact List.mem_cons_of_mem _ (ih h)

/-- The invariant as a finite check. -/
def invCheck (s : State) : Bool :=
  s.buffer.wf && s.params.permitted && decide (s.fillCount.toNat ≤ 42)
    && (decide (s.fillCount.toNat < 1) || readCell s.buffer 0 == some 0x02)
    && (decide (s.fillCount.toNat < 2) || readCell s.buffer 1 == some 0x05)
    && (List.range s.fillCount.toNat).all (fun k => (readCell s.buffer k).isSome)
    && s.buffer.all (fun c => c.2 &&& s.params.dataMask == c.2)

theorem inv_of_check {s : State} (h : invCheck s = true) : Inv s := by
  simp only [invCheck, Bool.and_eq_true, Bool.or_eq_true, decide_eq_true_eq, beq_iff_eq, List.all_eq_true, List.mem_range] at h
  obtain ⟨⟨⟨⟨⟨⟨h1, h2⟩, h3⟩, h4⟩, h5⟩, h6⟩, h7⟩ := h
  exact ⟨h1, h2, h3, fun k => h4.resolve_left (by omega), fun k => h5.resolve_left (by omega), h6,
    fun k v hk => h7 _ (mem_of_readCell hk)⟩

/-! ### Witnesses: the hypotheses of every statement are met -/

theorem witness_OverflowDropsTheByte :
    (Specified (atFill 0b01 43) ∧ 43 ≤ (atFill 0b01 43).fillCount.toNat) ∧ (Specified (atFill 0b11 63) ∧ 43 ≤ (atFill 0b11 63).fillCount.toNat) := by
  decide
theorem witness_Hdr0AcceptStoresTheFirstHeaderByte :
    Specified State.reset ∧ State.reset.params.permitted = true ∧ State.reset.fillCount.toNat = 0 := by decide
theorem witness_Hdr0SkipDiscardsTheByte :
    Specified State.reset ∧ State.reset.fillCount.toNat = 0 ∧ (0x82 : Byte) ≠ 0x02 := by decide
theorem witness_Hdr1AcceptStoresTheSecondHeaderByte :
    Specified (atFill 0b11 1) ∧ (atFill 0b11 1).params.permitted = true ∧ (atFill 0b11 1).fillCount.toNat = 1 := by decide
theorem witness_Hdr1ResyncDiscardsBothBytes :
    Specified (atFill 0b01 1) ∧ (atFill 0b01 1).fillCount.toNat = 1 ∧ (0x02 : Byte) ≠ 0x05 := by decide
theorem witness_AppendStoresTheMaskedByte :
    (Specified (atFill 0b01 2) ∧ 2 ≤ (atFill 0b01 2).fillCount.toNat ∧ (atFill 0b01 2).fillCount.toNat ≤ 41)
      ∧ (Specified (atFill 0b11 41) ∧ 2 ≤ (atFill 0b11 41).fillCount.toNat ∧ (atFill 0b11 41).fillCount.toNat ≤ 41) := by decide

theorem witness_AppendLastDeliversTheFrame :
    let s := almost 0b01 false Params.hardware headF
    let f := frameOf Params.hardware headF 0x00
    let g := frameOf Params.hardware headF 0xAB
    Specified s ∧ s.fillCount.toNat = 42 ∧ HoldsFrameBut s f ∧ f 0 = 0x02 ∧ f 1 = 0x05 ∧ (∀ k, k ≠ 42 → g k = f k)
      ∧ g 42 = 0xAB &&& s.params.dataMask := by
  refine ⟨by decide, by decide, by decide +kernel, by decide, by decide, ?_, by decide⟩
  intro k hk
  simp only [frameOf]
  rcases Nat.lt_or_gt_of_ne hk with h | h
  · rw [List.getD_append _ _ _ _ (show k < (body headF).length from h), List.getD_append _ _ _ _ (show k < (body headF).length from h)]
  · rw [List.getD_eq_default _ _ (show (body headF ++ [0xAB]).length ≤ k from h),
      List.getD_eq_default _ _ (show (body headF ++ [0x00]).length ≤ k from h)]

theorem witness_AppendLastDropsABadHeader :
    (let s := almost 0b01 false Params.hardware [0x03, 0x05]
     Specified s ∧ s.fillCount.toNat = 42 ∧ readCell s.buffer 0 = some 0x03 ∧ readCell s.buffer 1 = some 0x05
       ∧ ((0x03 : Byte) ≠ 0x02 ∨ (0x05 : Byte) ≠ 0x05))
    ∧ (let s := almost 0b11 false Params.hardware [0x02, 0x04]
       Specified s ∧ s.fillCount.toNat = 42 ∧ readCell s.buffer 0 = some 0x02 ∧ readCell s.buffer 1 = some 0x04
         ∧ ((0x02 : Byte) ≠ 0x02 ∨ (0x04 : Byte) ≠ 0x05)) := by decide +kernel

/-- Also for `DecodeMeetsThePseudocode` and `ExtractReadsTheSelectedSlot` (with `base` 5 and 35). -/
theorem witness_FrameReadyRunsTheDecoder :
    let s := full 0b11 false Params.hardware headX2 0x72
    Specified s ∧ HoldsFrame s (frameOf Params.hardware headX2 0x72) ∧ 5 = 5 + 6 * (0 : Fin 6).val ∧ 35 = 5 + 6 * (5 : Fin 6).val := by
  decide +kernel
theorem witness_FrameDropOnlyRestartsTheHunt : Specified State.reset ∧ (0x0205 : HeaderPair) ≠ 0x0502 := by decide

theorem witness_LenGuardEndsShortFrames :
    Specified State.reset ∧ (1 : BitVec 6).toNat < 2 ∧ 2 ≤ (2 : BitVec 6).toNat := by decide
/-- Also right after reset, where no cell holds a value. -/
theorem witness_ShortFrameDecodesToNothing :
    Specified State.reset ∧ (1 : BitVec 6).toNat < 2 ∧ Specified (full 0b11 true Params.hardware headF 0x33) := by decide +kernel

/-- One frame for each of the three clauses: a match, a tolerated mismatch and a rejected one. -/
theorem witness_CsumXorComparesTheFold :
    (let s := full 0b01 false Params.hardware (headK 0x02) 0x06
     let f := frameOf Params.hardware (headK 0x02) 0x06
     Specified s ∧ HoldsFrame s f ∧ xorOfFrame s.params.csumSeed f = f 42)
    ∧ (let s := full 0b01 false rejectNone (headK 0x02) 0x07
       let f := frameOf rejectNone (headK 0x02) 0x07
       Specified s ∧ HoldsFrame s f ∧ xorOfFrame s.params.csumSeed f ≠ f 42 ∧ checksumRejects s = false)
    ∧ (let s := full 0b01 false Params.hardware (headK 0x02) 0x07
       let f := frameOf Params.hardware (headK 0x02) 0x07
       Specified s ∧ HoldsFrame s f ∧ xorOfFrame s.params.csumSeed f ≠ f 42 ∧ checksumRejects s = true) := by decide +kernel
theorem witness_CsumAddComparesTheSum :
    (let s := full 0b11 false Params.hardware (headK 0x03) 0x15
     let f := frameOf Params.hardware (headK 0x03) 0x15
     Specified s ∧ HoldsFrame s f ∧ sumOfFrame s.params.csumSeed f = f 42)
    ∧ (let s := full 0b11 false Params.hardware (headK 0x03) 0x16
       let f := frameOf Params.hardware (headK 0x03) 0x16
       Specified s ∧ HoldsFrame s f ∧ sumOfFrame s.params.csumSeed f ≠ f 42 ∧ checksumRejects s = false)
    ∧ (let s := full 0b11 false rejectBoth (headK 0x03) 0x16
       let f := frameOf rejectBoth (headK 0x03) 0x16
       Specified s ∧ HoldsFrame s f ∧ sumOfFrame s.params.csumSeed f ≠ f 42 ∧ checksumRejects s = true) := by decide +kernel
theorem witness_AppendedChecksumIsAccepted :
    (let s := full 0b11 false Params.hardware (headK 0x03) 0x15
     let f := frameOf Params.hardware (headK 0x03) 0x15
     Specified s ∧ s.params.permitted = true ∧ HoldsFrame s f ∧ f 42 = sumOfFrame 0 f)
    ∧ (let s := full 0b01 false Params.hardware (headK 0x02) 0x06
       let f := frameOf Params.hardware (headK 0x02) 0x06
       Specified s ∧ s.params.permitted = true ∧ HoldsFrame s f ∧ f 42 = xorOfFrame 0 f) := by decide +kernel
/-- K8: raw bytes with bit 7 set. -/
theorem witness_XorChecksumSurvivesTheMask :
    let head : List Byte := [0x02, 0x05, 0x00, 0x00, 0x00, 0x00, 0x00, 0x64, 0x00, 0xC8]
    let s := full 0b01 false Params.hardware head 0xAB
    let g : Nat → Byte := fun k => (body head ++ [0xAB]).getD k 0x00
    Specified s ∧ s.params.permitted = true ∧ HoldsFrame s (fun k => g k &&& s.params.dataMask) ∧ g 42 = xorOfFrame 0 g := by
  decide +kernel
theorem witness_HighSumIsAlwaysFlagged :
    let s := full 0b11 false Params.hardware headF 0x33
    let f := frameOf Params.hardware headF 0x33
    s.variant = .revisionB ∧ s.params.csumRejectB = false ∧ HoldsFrame s f ∧ f 42 &&& 0x7F = f 42
      ∧ 0x80 ≤ (sumOfFrame s.params.csumSeed f).toNat := by decide +kernel

theorem witness_SelectTakesTheFirstActiveSlot :
    (let s := full 0b01 false Params.hardware headF 0x2B
     let f := frameOf Params.hardware headF 0x2B
     Specified s ∧ HoldsFrame s f ∧ f (6 + 6 * (0 : Fin 6).val) = 0x00 ∧ ∀ j : Fin 6, j < 0 → f (6 + 6 * j.val) ≠ 0x00)
    ∧ (let s := full 0b11 false Params.hardware headX2 0x72
       let f := frameOf Params.hardware headX2 0x72
       Specified s ∧ HoldsFrame s f ∧ f (6 + 6 * (5 : Fin 6).val) = 0x00 ∧ ∀ j : Fin 6, j < 5 → f (6 + 6 * j.val) ≠ 0x00) := by
  decide +kernel
theorem witness_SelectWithNoActiveSlotEndsDecoding :
    let s := full 0b11 false Params.hardware headX1 0x0D
    let f := frameOf Params.hardware headX1 0x0D
    Specified s ∧ HoldsFrame s f ∧ ∀ j : Fin 6, f (6 + 6 * j.val) ≠ 0x00 := by decide +kernel

/-- For PenToggleInvertsThePen, PenHoldAKeepsThePen, PenDownAndUpSetThePen, PenHoldBKeepsThePen, PenOperationsFollowTheTable and
EmitReportsThePenAfterTheTransition. -/
theorem witness_pen_operations :
    (atFill 0b01 0).variant = .revisionA ∧ (0x03 : Byte) ≠ 0x02 ∧ (atFill 0b11 0).variant = .revisionB ∧ (0x02 : Byte) ≠ 0x00
      ∧ (0x02 : Byte) ≠ 0x03 ∧ Specified (atFill 0b11 0)
      ∧ decodePen (atFill 0b11 0).variant 0x03 = .ok .penDownB ∧ decodePen (atFill 0b01 0).variant 0x02 = .ok .penToggleA := by decide

/-- Steps that answer a next state, for the statements about every next state of `FEED`: with an event that moves the pen and with none,
with each set of flags, at the last reachable position and in a guarded one (FillCountFollowsTheTable, EventExactlyWhenAFrameIsDecoded,
FlagSetsOfAStep, PenChangesOnlyWithAnEvent, OneCellIsWrittenPerStep, EveryConditionReturnsToTheHunt). -/
theorem witness_steps_answer :
    exec (.feed 0x05) (almost 0b01 false Params.hardware (headP 0x02))
        = .next (nextOf (exec (.feed 0x05) (almost 0b01 false Params.hardware (headP 0x02))))
      ∧ shown (exec (.feed 0x05) (almost 0b01 false Params.hardware (headP 0x02)))
        = some ⟨some .frameReady, ev 1 1 true, 0, some 0, true, 0⟩
      ∧ shown (exec (.feed 0x00) (atFill 0b01 0)) = some ⟨some .incomplete, none, 0b0001, none, false, 0⟩
      ∧ shown (exec (.feed 0x00) (atFill 0b01 63)) = some ⟨some .overflow, none, 0b0010, none, false, 0⟩
      ∧ shown (exec (.feed 0x06) (almost 0b01 false Params.hardware headX1))
        = some ⟨some .frameReady, none, 0b0100, some 0, false, 0⟩
      ∧ shown (exec (.feed 0x07) (almost 0b01 false Params.hardware headX1))
        = some ⟨some .frameReady, none, 0b1000, some 0, false, 0⟩
      ∧ shown (exec (.feed 0x0E) (almost 0b11 false Params.hardware headX1))
        = some ⟨some .frameReady, none, 0b1100, some 0, false, 0⟩ :=
  ⟨next_of_completes (by decide +kernel), by decide +kernel, by decide +kernel, by decide +kernel, by decide +kernel,
    by decide +kernel, by decide +kernel⟩

theorem witness_CoordinatesHaveFourteenBits :
    let s := almost 0b01 false Params.hardware (headP 0x02)
    Inv s ∧ s.params.dataMask = 0x7F ∧ exec (.feed 0x05) s = .next (nextOf (exec (.feed 0x05) s))
      ∧ (nextOf (exec (.feed 0x05) s)).out.event = ev 1 1 true :=
  ⟨inv_of_check (by decide +kernel), by decide, next_of_completes (by decide +kernel), by decide +kernel⟩

theorem witness_FrameLevelOperationsWriteNoCell :
    (let s := full 0b11 false Params.hardware headX2 0x72
     frameLevel .frameReady = true ∧ exec .frameReady s = .next (nextOf (exec .frameReady s)))
      ∧ frameLevel .penUpB = true ∧ exec .penUpB (atFill 0b11 0) = .next ((atFill 0b11 0).setPen false) :=
  ⟨⟨rfl, next_of_completes (by decide +kernel)⟩, rfl, rfl⟩

theorem witness_ConfigurationIsImmutable :
    exec .hdr0Accept State.reset = .next (nextOf (exec .hdr0Accept State.reset)) ∧ State.reset.buffer.wf = true :=
  ⟨next_of_completes (by decide +kernel), by decide⟩

theorem witness_RefusedSessionsRefuseEveryOperation :
    (atFill 0b00 0).variant = .legacy ∧ Instr.hdr0Accept ≠ .reservedRefuse ∧ (atFill 0b10 0).variant = .reserved
      ∧ Instr.hdr0Accept ≠ .legacyRefuse ∧ edgeAction (nextEdge (given 0x02 (atFill 0b00 0))) = .deliver 0x02
      ∧ edgeAction (nextEdge (given 0x02 (atFill 0b10 0))) = .deliver 0x02 := by decide

theorem witness_StepRunsTheDecodedOperation :
    (given 0x02 (atFill 0b01 0)).inputs = Edge.byte 0x02 :: [] ∧ (Edge.byte 0x02).rst = false ∧ (Edge.byte 0x02).rxValid = true := by
  decide
theorem witness_ResetEdgeCreatesASession :
    ((atFill 0b01 7).setInputs [Edge.create 0b11 false]).inputs = Edge.create 0b11 false :: []
      ∧ (Edge.create 0b11 false).rst = true := by decide
/-- Idle edges in front of a byte that ends the gap, and idle edges past those given. -/
theorem witness_IdleEdgesKeepAllState :
    (∀ e ∈ ((atFill 0b11 7).setInputs [{ Edge.quiet with rxData := 0x02 }, Edge.quiet, Edge.byte 0x02]).inputs.take 2,
        e.rst = false ∧ e.rxValid = false)
      ∧ (∀ e ∈ ((atFill 0b11 7).setInputs [Edge.quiet]).inputs.take 3, e.rst = false ∧ e.rxValid = false) := by
  decide
/-- An idle edge takes one edge off the input, and the byte after it is then the next (R103). -/
theorem test_idle_then_byte :
    (nextOf (step ((atFill 0b01 0).setInputs [Edge.quiet, Edge.byte 0x02]))).inputs = [Edge.byte 0x02] := by decide
theorem witness_VerboseGatesOnlyTheDiagnosticPort : (nextEdge (given 0x02 (atFill 0b01 0))).rst = false := by decide

/-- Also for SessionsNeverStop. -/
theorem witness_EveryStepKeepsTheInvariant :
    let s := given 0x05 (almost 0b01 false Params.hardware (headP 0x02))
    Inv s ∧ Specified s ∧ step s = .next (nextOf (step s)) :=
  ⟨inv_of_check (by decide +kernel), by decide, next_of_completes (by decide +kernel)⟩
/-- A state in 42 whose step completes a frame, and a state in 1 whose step answers Resynced. -/
theorem witness_GuardsAreUnreachable :
    (let s := almost 0b01 false Params.hardware (headP 0x02)
     Inv s ∧ s.fillCount.toNat = 42 ∧ exec (.feed 0x05) s = .next (nextOf (exec (.feed 0x05) s)))
    ∧ (let s := (atFill 0b01 1).setBuffer [(0, 0x02)]
       Inv s ∧ exec (.feed 0x02) s = .next (nextOf (exec (.feed 0x02) s))
         ∧ (nextOf (exec (.feed 0x02) s)).out.outcome = some .resynced) :=
  ⟨⟨inv_of_check (by decide +kernel), by decide, next_of_completes (by decide +kernel)⟩,
    ⟨inv_of_check (by decide +kernel), next_of_completes (by decide +kernel), by decide +kernel⟩⟩
theorem witness_FeedCompletesAndMovesFillCount : Inv State.reset ∧ Specified State.reset :=
  ⟨inv_of_check (by decide), by decide⟩

theorem witness_FramingYieldsOneFrameReady :
    let f : Nat → Byte := fun k => (body headF ++ [0xAB]).getD k 0x00
    Specified State.reset ∧ State.reset.params.permitted = true ∧ State.reset.fillCount = 0 ∧ f 0 = 0x02 ∧ f 1 = 0x05
      ∧ ∀ k, frameOf Params.hardware headF 0xAB k = f k &&& State.reset.params.dataMask :=
  ⟨by decide, by decide, by decide, by decide, by decide, fun _ => rfl⟩
/-- The ports after a step with an event, after a step without one, and after none; the record with verbosity on and off. -/
theorem witness_ConditionCodesAndPortEncodings :
    (let t := nextOf (step (given 0x2B (almost 0b01 false Params.hardware headF)))
     t.out.event = ev 100 72 false ∧ t.out.outcome = some .frameReady ∧ t.verbose = true)
    ∧ (nextOf (step (given 0x02 (atFill 0b01 0)))).out.event = none
    ∧ State.reset.out.outcome = none ∧ (State.reset.setCfg (packCfg 0b01 false)).verbose = false := by decide +kernel

/-- `CFG` latched from the pins: `verbose` in bit 2, `variant` in bits 1:0 (R23, R24). -/
theorem test_cfg_layout :
    (nextOf (step ((atFill 0b01 7).setInputs [Edge.create 0b11 false]))).cfg = 0b011
      ∧ (nextOf (step ((atFill 0b11 7).setInputs [Edge.create 0b01 true]))).cfg = 0b101 := by decide +kernel

/-- K3: the abstract record holds the computed and the stored checksum, 06 and 07; the ports show neither (D18, R152). -/
theorem test_mismatch_values :
    (nextOf (step (given 0x07 (almost 0b01 false Params.hardware (headK 0x02))))).out.diag.checksum
      = some { computed := 0x06, stored := 0x07 } := by decide +kernel

/-- E2's instances: a lone 02 11 leaves state 0, a trailing 02 leaves state 1. -/
theorem witness_ResynchronizationAndItsLimit :
    Specified State.reset ∧ State.reset.params.permitted = true ∧ State.reset.fillCount = 0
      ∧ hunt 0 [0x7F, 0x02, 0x11] ≠ 2 ∧ hunt 0 [0x7F, 0x02, 0x11] = 0 ∧ hunt 0 [0x33, 0x02] = 1 ∧ hunt 0 [0x02, 0x05] = 2
      ∧ ([0x02, 0x05] : List Byte).length < 41 ∧ (List.replicate 41 (0x02 : Byte)).length = 41 := by decide

/-- T1 of S1: `FRAME_B{s0=(03,00,50,300) s1..s5=(00,01,0,0) count=01}`. -/
theorem test_frameForm_T1 :
    (let o : SlotForm := { id := 0x01 }
     let t1 : FrameForm := { s0 := ⟨0x03, 0x00, 50, 300⟩, s1 := o, s2 := o, s3 := o, s4 := o, s5 := o, count := 0x01 }
     t1.expandB = [0x02, 0x05, 0x00, 0x00, 0x00, 0x03, 0x00, 0x32, 0x00, 0x2C, 0x01] ++ [0x00, 0x01, 0x00, 0x00, 0x00, 0x00]
       ++ [0x00, 0x01, 0x00, 0x00, 0x00, 0x00] ++ [0x00, 0x01, 0x00, 0x00, 0x00, 0x00] ++ [0x00, 0x01, 0x00, 0x00, 0x00, 0x00]
       ++ [0x00, 0x01, 0x00, 0x00, 0x00, 0x00] ++ [0x01, 0x6F]) := by decide
/-- G of E5: `FRAME_A{s0=(02,00,5,6)}`. -/
theorem test_frameForm_G :
    (let g : FrameForm := { s0 := ⟨0x02, 0x00, 5, 6⟩ }
     g.expandA = [0x02, 0x05, 0x00, 0x00, 0x00, 0x02, 0x00, 0x05, 0x00, 0x06] ++ List.replicate 32 0x00 ++ [0x06]) := by decide
/-- Each clause: `FRAME_A` under RevisionA, `FRAME_B` under RevisionB without a mask, both after reset; the first and the last slot; a
`csum` given and not given. -/
theorem witness_FrameFormsAreStoredMasked :
    Specified State.reset ∧ State.reset.params.permitted = true ∧ State.reset.fillCount = 0
      ∧ State.reset.variant = .revisionA ∧ ({} : FrameForm).csum = none ∧ ({ csum := some 0xC8 } : FrameForm).csum = some 0xC8
      ∧ (let o : SlotForm := { id := 0x01 }
         [o, {}, {}, {}, {}, {}][0]? = some o ∧ [({} : SlotForm), {}, {}, {}, {}, o][5]? = some o)
      ∧ (let s := (State.reset.setCfg (packCfg 0b11 true)).setParams wide
         Specified s ∧ s.params.permitted = true ∧ s.fillCount = 0 ∧ s.variant = .revisionB ∧ s.params.dataMask = 0xFF) := by decide
/-- R140 on a buffer where no cell holds a value: no event, no flag. -/
theorem test_short_decode_from_reset :
    shown (exec (.decode 1) State.reset) = some ⟨none, none, 0b0000, none, false, 0⟩
      ∧ (outputPorts (nextOf (exec (.decode 1) State.reset))).diagCountValid = true := by decide

theorem witness_DecoderReadsTheTable :
    (variantOfBits 0b01).specified = true ∧ decodePen (variantOfBits 0b11) 0x03 = .ok .penDownB
      ∧ decodeConfig (variantOfBits 0b00) = .ok .legacyRefuse := by decide
theorem witness_DecodeOfEncodeIsIdentity :
    (Instr.penHoldB 0x7F).wellFormed = true ∧ (Instr.penHoldB 0x7F).selectedIn { variant := 0b11, fillCount := 43 } = true
      ∧ (Instr.append 0x02).wellFormed = true ∧ (Instr.append 0x02).selectedIn { variant := 0b01, fillCount := 41 } = true := by decide
theorem witness_EncodeOfDecodeIsIdentity :
    (variantOfBits 0b11).specified = true
      ∧ decodeAt .byteStep { variant := 0b11, fillCount := 2 } (.byte 0x02) = .ok (.append 0x02) := by decide

end Sys2Proof.Tests
end

/-! PROOFS. Writes to the buffer (spec/20_memory.md R42): what each operation leaves in it, and that a step writes one cell at most. -/

namespace Sys2Proof.Machine

section BufferWrites

variable {s t : State} {b : Byte}

/-- An operation that only updates fields answers that update. -/
theorem inSession_next_eq {u : State} (h : inSession s (.next u) = .next t) : t = u := by
  obtain ⟨_, h⟩ := inSession_eq_next h
  cases h
  rfl

/-! ### The operations that store a byte -/

/-- An operation that stores a byte and then leaves the buffer alone has written exactly that cell (R42, R43). -/
theorem store_andThen_buffer {index : Nat} {n : BitVec 6} {k : State → Answer State}
    (hk : ∀ u, k u = .next t → t.buffer = u.buffer)
    (h : inSession s (andThen (storeByte index b n (beginStep s)) k) = .next t) :
    index < 43 ∧ t.buffer = writeCell s.buffer index (b &&& s.params.dataMask) := by
  obtain ⟨_, h⟩ := inSession_eq_next h
  obtain ⟨u, hu, h⟩ := andThen_eq_next h
  obtain ⟨hi, rfl⟩ := storeByte_eq_next hu
  exact ⟨hi, hk _ h⟩

/-- The continuation of the three storing operations that do not complete a frame. -/
theorem setOutcome_keeps_buffer {o : FrameOutcome} (u : State) (h : Host.Outcome.next (setOutcome o u) = (.next t : Answer State)) :
    t.buffer = u.buffer := by
  cases h
  rfl

theorem execHdr0Accept_buffer (h : execHdr0Accept s = .next t) :
    t.buffer = writeCell s.buffer 0 (Config.hdr0 &&& s.params.dataMask) :=
  (store_andThen_buffer setOutcome_keeps_buffer h).2

theorem execHdr1Accept_buffer (h : execHdr1Accept s = .next t) :
    t.buffer = writeCell s.buffer 1 (Config.hdr1 &&& s.params.dataMask) :=
  (store_andThen_buffer setOutcome_keeps_buffer h).2

theorem execAppend_buffer (h : execAppend b s = .next t) :
    t.buffer = writeCell s.buffer s.fillCount.toNat (b &&& s.params.dataMask) :=
  (store_andThen_buffer setOutcome_keeps_buffer h).2

/-- `FRAME_CHECK`, which follows the store of the 43rd byte, writes no cell, whichever way it goes (R97, R98). -/
theorem execAppendLast_buffer (h : execAppendLast b s = .next t) :
    t.buffer = writeCell s.buffer 42 (b &&& s.params.dataMask) :=
  (store_andThen_buffer (fun _ hu => (frameCheck_frame hu).1) h).2

/-! ### The byte-level operations that discard the byte -/

theorem execOverflow_buffer (h : execOverflow b s = .next t) : t.buffer = s.buffer := by
  rw [inSession_next_eq h]
  rfl

theorem execHdr0Skip_buffer (h : execHdr0Skip b s = .next t) : t.buffer = s.buffer := by
  rw [inSession_next_eq h]
  rfl

theorem execHdr1Resync_buffer (h : execHdr1Resync b s = .next t) : t.buffer = s.buffer := by
  rw [inSession_next_eq h]
  rfl

/-! ### The frame-level operations -/

theorem execPenDownB_frame (h : execPenDownB s = .next t) : DecoderFrame s t := by
  obtain ⟨_, h⟩ := inSession_eq_next h
  split_ifs at h <;> cases h <;> exact ⟨rfl, rfl, rfl, rfl, rfl⟩

theorem execFrameReady_frame (h : execFrameReady s = .next t) : DecoderFrame (s.setFill 0) t :=
  .trans (t := setOutcome .frameReady (s.setFill 0)) ⟨rfl, rfl, rfl, rfl, rfl⟩ (execDecode_frame (inSession_eq_next h).2)

theorem execFrameDrop_frame {header : HeaderPair} (h : execFrameDrop header s = .next t) : DecoderFrame (s.setFill 0) t := by
  rw [inSession_next_eq h]
  exact ⟨rfl, rfl, rfl, rfl, rfl⟩

/-- A frame-level operation keeps everything the decoder keeps; the two rows of `FRAME_CHECK` set `fill_count` to 0 before that
(R98, R141). -/
theorem exec_frameLevel_frame {i : Instr} (hi : frameLevel i = true) (h : exec i s = .next t) :
    DecoderFrame s t ∨ (DecoderFrame (s.setFill 0) t ∧ (i = .frameReady ∨ ∃ header, i = .frameDrop header)) := by
  cases i with
  | overflow | hdr0Accept | hdr0Skip | hdr1Accept | hdr1Resync | append | appendLast | feed => cases hi
  | frameReady => exact .inr ⟨execFrameReady_frame h, .inl rfl⟩
  | frameDrop header => exact .inr ⟨execFrameDrop_frame (header := header) h, .inr ⟨header, rfl⟩⟩
  | lenGuard => exact .inl (stateOf_frame (fun _ hp => lenGuard_frame hp) h)
  | csumXor | csumAdd => exact .inl (stateOf_frame (fun _ hp => checksumBy_frame hp) h)
  | select => exact .inl (stateOf_frame (fun _ hp => selectSlot_frame hp) h)
  | extract => exact .inl (stateOf_frame (fun _ hp => extractRecord_frame hp) h)
  | penDownB => exact .inl (execPenDownB_frame h)
  | penToggleA | penHoldA | penUpB | penHoldB | emit =>
    rw [inSession_next_eq h]
    exact .inl ⟨rfl, rfl, rfl, rfl, rfl⟩
  | decode => exact .inl (execDecode_frame h)
  | legacyRefuse | reservedRefuse => cases h

/-- The decoder writes no cell (R42). -/
theorem exec_frameLevel_buffer {i : Instr} (hi : frameLevel i = true) (h : exec i s = .next t) : t.buffer = s.buffer := by
  rcases exec_frameLevel_frame hi h with hf | ⟨hf, _⟩
  · exact hf.buffer
  · exact hf.buffer

/-! ### The step and the operations that may write -/

/-- What `FEED` can do to the buffer: nothing, or the one write of the masked byte at the old `fill_count` (R42). -/
theorem execFeed_buffer (h : execFeed b s = .next t) :
    t.buffer = s.buffer
      ∨ (s.fillCount.toNat < 43 ∧ t.buffer = writeCell s.buffer s.fillCount.toNat (b &&& s.params.dataMask)) := by
  replace h := (inSession_eq_next h).2
  split_ifs at h with h43 h0 hb h1 hb h41
  · exact .inl (execOverflow_buffer h)
  · subst hb
    exact .inr ⟨by omega, h0 ▸ execHdr0Accept_buffer h⟩
  · exact .inl (execHdr0Skip_buffer h)
  · subst hb
    exact .inr ⟨by omega, h1 ▸ execHdr1Accept_buffer h⟩
  · exact .inl (execHdr1Resync_buffer h)
  · exact .inr ⟨by omega, execAppend_buffer h⟩
  · have h42 : s.fillCount.toNat = 42 := by omega
    exact .inr ⟨by omega, h42 ▸ execAppendLast_buffer h⟩

/-- The one write of a step, cell by cell. -/
theorem execFeed_cells (h : execFeed b s = .next t) :
    (∀ a, a ≠ s.fillCount.toNat → readCell t.buffer a = readCell s.buffer a)
      ∧ (readCell t.buffer s.fillCount.toNat = readCell s.buffer s.fillCount.toNat
          ∨ (readCell t.buffer s.fillCount.toNat = some (b &&& s.params.dataMask) ∧ s.fillCount.toNat < 43)) := by
  rcases execFeed_buffer h with hb | ⟨hlt, hb⟩ <;> rw [hb]
  · exact ⟨fun _ _ => rfl, .inl rfl⟩
  · exact ⟨fun _ ha => readCell_writeCell_other _ _ ha, .inr ⟨readCell_writeCell_same _ _ _, hlt⟩⟩

/-- The operations that may change the buffer (R42). -/
theorem storing_of_buffer_ne {i : Instr} (h : exec i s = .next t) (hne : t.buffer ≠ s.buffer) :
    i = .hdr0Accept ∨ i = .hdr1Accept ∨ (∃ b, i = .append b) ∨ (∃ b, i = .appendLast b) ∨ (∃ b, i = .feed b) := by
  cases hl : frameLevel i with
  | true => exact absurd (exec_frameLevel_buffer hl h) hne
  | false =>
    cases i with
    | hdr0Accept | hdr1Accept | append | appendLast | feed => simp
    | overflow b => exact absurd (execOverflow_buffer (b := b) h) hne
    | hdr0Skip b => exact absurd (execHdr0Skip_buffer (b := b) h) hne
    | hdr1Resync b => exact absurd (execHdr1Resync_buffer (b := b) h) hne
    | _ => cases hl

end BufferWrites

/-- Settles O35: `FEED` leaves the buffer or writes the one cell at the old `fill_count`, and every operation outside the storing ones
keeps the whole buffer. -/
theorem oneCellIsWrittenPerStep : Obligations.OneCellIsWrittenPerStep :=
  ⟨fun _ _ _ h => execFeed_cells h, fun _ _ _ h hne => storing_of_buffer_ne h hne⟩

end Sys2Proof.Machine

/-! PROOFS. The operations that store a byte and complete no frame (spec/40_frame_assembler.md R92, R94, R96): the state each one
leaves, the effects of such a step said once, and the byte each one is selected by. -/

namespace Sys2Proof.Machine

/-- The state that a storing step leaves when the frame is not yet complete: the masked byte in one cell, the new `fill_count`, the
outcome Incomplete with no flag (R42, R43). -/
def storedIncomplete (index : Nat) (b : Byte) (n : BitVec 6) (s : State) : State :=
  ((s.setBuffer (writeCell s.buffer index (b &&& s.params.dataMask))).setFill n).setOut (stepOutput .incomplete Diag.clear)

section StoringSteps

variable {s : State} {index : Nat}

/-! ### What the storing operations answer -/

/-- The shape that `HDR0_ACCEPT`, `HDR1_ACCEPT` and `APPEND` share. -/
theorem store_setOutcome_eq (hs : Specified s) (hi : index < 43) (b : Byte) (n : BitVec 6) :
    inSession s (andThen (storeByte index b n (beginStep s)) (fun t => .next (setOutcome .incomplete t)))
      = .next (storedIncomplete index b n s) := by
  rw [inSession_of_specified hs, storeByte_of_lt hi]
  rfl

theorem exec_hdr0Accept_eq (hs : Specified s) : exec .hdr0Accept s = .next (storedIncomplete 0 Config.hdr0 1 s) :=
  store_setOutcome_eq hs (by decide) Config.hdr0 1

theorem exec_hdr1Accept_eq (hs : Specified s) : exec .hdr1Accept s = .next (storedIncomplete 1 Config.hdr1 2 s) :=
  store_setOutcome_eq hs (by decide) Config.hdr1 2

theorem exec_append_eq (hs : Specified s) (hi : s.fillCount.toNat < 43) (b : Byte) :
    exec (.append b) s = .next (storedIncomplete s.fillCount.toNat b (s.fillCount + 1) s) :=
  store_setOutcome_eq hs hi b (s.fillCount + 1)

/-! ### What a storing step changes and what it keeps -/

@[simp] theorem storedIncomplete_fillCount (b : Byte) (n : BitVec 6) : (storedIncomplete index b n s).fillCount = n := rfl

@[simp] theorem storedIncomplete_out (b : Byte) (n : BitVec 6) :
    (storedIncomplete index b n s).out = stepOutput .incomplete Diag.clear := rfl

theorem readCell_storedIncomplete_same {b v : Byte} (n : BitVec 6) (hv : b &&& s.params.dataMask = v) :
    readCell (storedIncomplete index b n s).buffer index = some v :=
  hv ▸ readCell_writeCell_same s.buffer index _

theorem readCell_storedIncomplete_other (b : Byte) (n : BitVec 6) {a : Nat} (ha : a ≠ index) :
    readCell (storedIncomplete index b n s).buffer a = readCell s.buffer a :=
  readCell_writeCell_other s.buffer _ ha

theorem storedIncomplete_frame (b : Byte) (n : BitVec 6) : AssemblerFrame s (storedIncomplete index b n s) :=
  ⟨rfl, rfl, rfl, rfl⟩

/-! ### The byte that selects each operation (R60) -/

theorem decodeByte_hdr0 (hs : Specified s) (h0 : s.fillCount.toNat = 0) : decodeByte s.context Config.hdr0 = .hdr0Accept := by
  rw [decodeByte_of_specified (c := s.context) hs]
  simp [State.context_eq, h0]

theorem decodeByte_hdr1 (hs : Specified s) (h1 : s.fillCount.toNat = 1) : decodeByte s.context Config.hdr1 = .hdr1Accept := by
  rw [decodeByte_of_specified (c := s.context) hs]
  simp [State.context_eq, h1]

theorem decodeByte_append (hs : Specified s) (hlo : 2 ≤ s.fillCount.toNat) (hhi : s.fillCount.toNat ≤ 41) (b : Byte) :
    decodeByte s.context b = .append b := by
  rw [decodeByte_of_specified (c := s.context) hs, State.context_eq, if_neg (show ¬43 ≤ s.fillCount.toNat by omega),
    if_neg (show s.fillCount.toNat ≠ 0 by omega), if_neg (show s.fillCount.toNat ≠ 1 by omega), if_pos hhi]

/-- In states 2..41 the increment of the 6-bit `fill_count` does not wrap (R96). -/
theorem fillCount_add_one_toNat (hhi : s.fillCount.toNat ≤ 41) : (s.fillCount + 1).toNat = s.fillCount.toNat + 1 :=
  BitVec.toNat_add_of_lt (show s.fillCount.toNat + 1 < 64 by omega)

end StoringSteps

/-- Settles O6: the byte goes masked into the cell at the old `fill_count`, and the increment stays within 6 bits. -/
theorem appendStoresTheMaskedByte : Obligations.AppendStoresTheMaskedByte := by
  intro s b hs hlo hhi
  have hfill := fillCount_add_one_toNat hhi
  refine ⟨decodeByte_append hs hlo hhi b, _, exec_append_eq hs (by omega) b, hfill, ?_, storedIncomplete_out b _,
    readCell_storedIncomplete_same _ rfl, fun _ ha => readCell_storedIncomplete_other b _ ha, storedIncomplete_frame b _⟩
  rw [storedIncomplete_fillCount, hfill]
  omega

/-- Settles O2: either permitted mask keeps the first header byte, so cell 0 holds 0x02 itself. -/
theorem hdr0AcceptStoresTheFirstHeaderByte : Obligations.Hdr0AcceptStoresTheFirstHeaderByte := by
  intro s hs hp h0
  exact ⟨decodeByte_hdr0 hs h0, _, exec_hdr0Accept_eq hs, storedIncomplete_fillCount _ _, storedIncomplete_out _ _,
    readCell_storedIncomplete_same _ (hdr0_masked hp), fun _ ha => readCell_storedIncomplete_other _ _ ha,
    storedIncomplete_frame _ _⟩

/-- Settles O4: either permitted mask keeps the second header byte, so cell 1 holds 0x05 itself. -/
theorem hdr1AcceptStoresTheSecondHeaderByte : Obligations.Hdr1AcceptStoresTheSecondHeaderByte := by
  intro s hs hp h1
  exact ⟨decodeByte_hdr1 hs h1, _, exec_hdr1Accept_eq hs, storedIncomplete_fillCount _ _, storedIncomplete_out _ _,
    readCell_storedIncomplete_same _ (hdr1_masked hp), fun _ ha => readCell_storedIncomplete_other _ _ ha,
    storedIncomplete_frame _ _⟩

end Sys2Proof.Machine

/-! PROOFS. The pen-state operations (spec/43_pen_state.md R130 to R136): the operation that a status byte decodes to is the one that
the decoding of a frame runs, so it moves the pen as the table of R135 says. -/

namespace Sys2Proof.Machine

section PenOperations

variable {s : State} {status : Byte}

/-! ### The row that a status byte selects under RevisionB (R66) -/

theorem decodePen_revisionB_down (hv : s.variant = .revisionB) : decodePen s.variant 0x03 = .ok .penDownB := by
  rw [hv]
  rfl

theorem decodePen_revisionB_up (hv : s.variant = .revisionB) : decodePen s.variant 0x00 = .ok .penUpB := by
  rw [hv]
  rfl

theorem decodePen_revisionB_hold (hv : s.variant = .revisionB) (hup : status ≠ 0x00) (hdown : status ≠ 0x03) :
    decodePen s.variant status = .ok (.penHoldB status) := by
  rw [hv, decodePen, if_neg (show status ≠ Config.stDownB from hdown), if_neg (show status ≠ Config.stUpB from hup)]

/-! ### What the selected operation does -/

/-- Only a specified session decodes a pen-state operation (R147). -/
theorem specified_of_decodePen {i : Instr} (h : decodePen s.variant status = .ok i) : Specified s := by
  rw [Specified]
  cases hv : s.variant with
  | revisionA | revisionB => rfl
  | legacy | reserved => simp [decodePen, hv] at h

/-- The decoder and the composite `DECODE` select a pen-state operation alike (R66, R68). -/
theorem exec_eq_runPenOperation {i : Instr} (h : decodePen s.variant status = .ok i) : exec i s = runPenOperation status s := by
  rw [runPenOperation]
  cases hv : s.variant with
  | legacy | reserved => simp [decodePen, hv] at h
  | revisionA | revisionB =>
    rw [hv, decodePen] at h
    cases h
    split_ifs <;> rfl

/-- The selected operation sets the pen to the table's value and changes nothing else (R135). -/
theorem exec_of_decodePen {i : Instr} (h : decodePen s.variant status = .ok i) :
    exec i s = .next (s.setPen (penTransition s.variant status s.penDown)) :=
  (exec_eq_runPenOperation h).trans (runPenOperation_eq (specified_of_decodePen h) status)

/-- `EMIT` reports the pen as it stands (R136). -/
theorem exec_emit_eq (hs : Specified s) (x y : Coord) : exec (.emit x y) s = .next (emitEvent x y s) :=
  inSession_of_specified hs _

/-! ### The table's three rows for RevisionB (R132 to R135) -/

theorem penTransition_revisionB_down (p : Bool) : penTransition .revisionB 0x03 p = true := rfl

theorem penTransition_revisionB_up (p : Bool) : penTransition .revisionB 0x00 p = false := rfl

theorem penTransition_revisionB_hold (hup : status ≠ 0x00) (hdown : status ≠ 0x03) (p : Bool) :
    penTransition .revisionB status p = p := by
  rw [penTransition, if_neg hdown, if_neg hup]

/-- `PEN_HOLD_B`, once selected, leaves the state as it was (R134). -/
theorem exec_penHoldB_eq (hv : s.variant = .revisionB) (hup : status ≠ 0x00) (hdown : status ≠ 0x03) :
    exec (.penHoldB status) s = .next s := by
  rw [exec_of_decodePen (decodePen_revisionB_hold hv hup hdown), hv, penTransition_revisionB_hold hup hdown]
  rfl

end PenOperations

/-- Settles O26: the two status bytes select the rows whose new pen value in the table does not depend on the old one. -/
theorem penDownAndUpSetThePen : Obligations.PenDownAndUpSetThePen := by
  intro s hv
  have hdown := decodePen_revisionB_down hv
  have hup := decodePen_revisionB_up hv
  refine ⟨hdown, hup, ?_, ?_⟩
  · rw [exec_of_decodePen hdown, hv, penTransition_revisionB_down]
  · rw [exec_of_decodePen hup, hv, penTransition_revisionB_up]

/-- Settles O27: the selected row keeps the state, so `EMIT` runs on the state before it and reports that state's pen. -/
theorem penHoldBKeepsThePen : Obligations.PenHoldBKeepsThePen := by
  intro s status hv hup hdown
  have hsel := decodePen_revisionB_hold hv hup hdown
  have hkeep := exec_penHoldB_eq hv hup hdown
  refine ⟨hsel, hkeep, fun x y => ?_⟩
  rw [hkeep, andThen_next, exec_emit_eq (specified_of_decodePen hsel)]
  rfl

end Sys2Proof.Machine

/-! PROOFS. Recovery from the conditions (spec/60_exceptions.md R155): a step that raises a flag leaves the session it found at
`fill_count` 0, where the next byte is examined as a possible `HDR0`. -/

namespace Sys2Proof.Machine

section Recovery

variable {s t : State} {b : Byte}

/-! ### The byte that `fill_count` 0 meets (R60) -/

/-- Whether a session is specified depends on `CFG` alone (R24). -/
theorem specified_of_cfg_eq (hcfg : t.cfg = s.cfg) (hs : Specified s) : Specified t := by
  rwa [Specified, State.variant, hcfg]

theorem decodeByte_hdr0Skip (hs : Specified s) (h0 : s.fillCount.toNat = 0) (hb : b ≠ 0x02) :
    decodeByte s.context b = .hdr0Skip b := by
  rw [decodeByte_of_specified (c := s.context) hs, State.context_eq, if_neg (show ¬43 ≤ s.fillCount.toNat by omega), if_pos h0,
    if_neg (show b ≠ Config.hdr0 from hb)]

/-! ### What the operations of a step leave -/

/-- What a step leaves of the position and the flags: it keeps `CFG`, and it goes back to `fill_count` 0 unless it has raised
nothing. -/
structure HuntsUnlessClear (s t : State) : Prop where
  cfg  : t.cfg = s.cfg
  hunt : t.fillCount = 0 ∨ t.out.diag = Diag.clear

/-- What the operation after a store starts from: the session's `CFG` and the outputs as `FEED` begins (R90). -/
theorem store_andThen_next {index : Nat} {n : BitVec 6} {k : State → Answer State}
    (h : inSession s (andThen (storeByte index b n (beginStep s)) k) = .next t) :
    ∃ u, u.cfg = s.cfg ∧ u.out = StepOut.begun ∧ k u = .next t := by
  obtain ⟨_, h⟩ := inSession_eq_next h
  obtain ⟨u, hu, h⟩ := andThen_eq_next h
  obtain ⟨_, rfl⟩ := storeByte_eq_next hu
  refine ⟨_, ?_, ?_, h⟩ <;> rfl

/-- A store that does not complete the frame raises nothing (R92, R94, R96). -/
theorem storeIncomplete_huntsUnlessClear {index : Nat} {n : BitVec 6}
    (h : inSession s (andThen (storeByte index b n (beginStep s)) (fun u => .next (setOutcome .incomplete u))) = .next t) :
    HuntsUnlessClear s t := by
  obtain ⟨u, hcfg, hout, h⟩ := store_andThen_next h
  cases h
  exact ⟨hcfg, .inr (congrArg StepOut.diag hout)⟩

/-- `FRAME_CHECK` empties the buffer whichever way it goes (R98). -/
theorem frameCheck_fillCount (h : frameCheck s = .next t) : t.fillCount = 0 := by
  obtain ⟨_, _, h⟩ := withRead_eq_next h
  split_ifs at h
  · exact (execFrameReady_frame h).fillCount
  · exact (execFrameDrop_frame h).fillCount

theorem execAppendLast_huntsUnlessClear (h : execAppendLast b s = .next t) : HuntsUnlessClear s t := by
  obtain ⟨u, hcfg, _, h⟩ := store_andThen_next h
  obtain ⟨_, hcheck, _⟩ := frameCheck_frame h
  exact ⟨hcheck.trans hcfg, .inl (frameCheck_fillCount h)⟩

/-- The seven operations of a step, one by one: three raise nothing, `HDR0_SKIP` finds `fill_count` 0 and keeps it, and the other three
set it to 0 (R91 to R98). -/
theorem execFeed_huntsUnlessClear (h : execFeed b s = .next t) : HuntsUnlessClear s t := by
  replace h := (inSession_eq_next h).2
  split_ifs at h with _ h0
  · rw [inSession_next_eq (show execOverflow b s = .next t from h)]
    exact ⟨rfl, .inl rfl⟩
  · exact storeIncomplete_huntsUnlessClear h
  · rw [inSession_next_eq (show execHdr0Skip b s = .next t from h)]
    exact ⟨rfl, .inl (BitVec.eq_of_toNat_eq h0)⟩
  · exact storeIncomplete_huntsUnlessClear h
  · rw [inSession_next_eq (show execHdr1Resync b s = .next t from h)]
    exact ⟨rfl, .inl rfl⟩
  · exact storeIncomplete_huntsUnlessClear h
  · exact execAppendLast_huntsUnlessClear h

end Recovery

/-- Settles O36: a step with a flag is none of the three that raise nothing, so `fill_count` is 0, and the session is still the specified
one that `FEED` found. -/
theorem everyConditionReturnsToTheHunt : Obligations.EveryConditionReturnsToTheHunt := by
  intro s t b h hflag
  obtain ⟨hcfg, hhunt⟩ := execFeed_huntsUnlessClear h
  have hs : Specified t := specified_of_cfg_eq hcfg (inSession_eq_next h).1
  have hfill : t.fillCount = 0 := hhunt.resolve_right fun hclear => hflag (congrArg Diag.flagBits hclear)
  have h0 : t.fillCount.toNat = 0 := congrArg BitVec.toNat hfill
  exact ⟨hfill, decodeByte_hdr0 hs h0, fun _ hc => decodeByte_hdr0Skip hs h0 hc⟩

end Sys2Proof.Machine

/-! PROOFS. The encoding (spec/30_encoding.md): decoder and encoder are inverse to each other on the units that each position reads, and
the decoder is the opcode table read in priority order. -/

namespace Sys2Proof

open Sys2Proof.Machine

section Encoding

variable {c : Context} {b : Byte} {i : Instr}

/-! ### The byte decoder, one equation for each `fill_count` range (R60) -/

section ByteClasses

variable (hs : (variantOfBits c.variant).specified = true)
include hs

theorem decodeByte_of_overrun (h : 43 ≤ c.fillCount.toNat) : decodeByte c b = .overflow b := by
  rw [decodeByte_of_specified hs, if_pos h]

theorem decodeByte_of_zero (h : c.fillCount.toNat = 0) :
    decodeByte c b = if b = Config.hdr0 then .hdr0Accept else .hdr0Skip b := by
  rw [decodeByte_of_specified hs, h]
  rfl

theorem decodeByte_of_one (h : c.fillCount.toNat = 1) :
    decodeByte c b = if b = Config.hdr1 then .hdr1Accept else .hdr1Resync b := by
  rw [decodeByte_of_specified hs, h]
  rfl

theorem decodeByte_of_payload (hlo : 2 ≤ c.fillCount.toNat) (hhi : c.fillCount.toNat ≤ 41) : decodeByte c b = .append b := by
  rw [decodeByte_of_specified hs, if_neg (by omega), if_neg (by omega), if_neg (by omega), if_pos hhi]

theorem decodeByte_of_last (h : c.fillCount.toNat = 42) : decodeByte c b = .appendLast b := by
  rw [decodeByte_of_specified hs, h]
  rfl

end ByteClasses

/-! ### Decoding what an operation is encoded in (R60, R66, R68) -/

/-- A byte-level operation is the one its own byte selects, in the `fill_count` range of its row. -/
theorem decodeByte_encode (henc : encode i = .byte b) (hpos : i.position = .byteStep)
    (hwf : i.wellFormed = true) (hsel : i.selectedIn c = true) : decodeByte c b = i := by
  cases i <;> cases hpos <;> cases henc <;>
    simp only [Instr.selectedIn, Bool.and_eq_true, decide_eq_true_eq] at hsel <;>
    obtain ⟨hs, hfill⟩ := hsel
  case overflow => exact decodeByte_of_overrun hs hfill
  case hdr0Accept => rw [decodeByte_of_zero hs hfill]; rfl
  case hdr0Skip => rw [decodeByte_of_zero hs hfill, if_neg (bne_iff_ne.mp hwf)]
  case hdr1Accept => rw [decodeByte_of_one hs hfill]; rfl
  case hdr1Resync => rw [decodeByte_of_one hs hfill, if_neg (bne_iff_ne.mp hwf)]
  case append => exact decodeByte_of_payload hs hfill.1 hfill.2
  case appendLast => exact decodeByte_of_last hs hfill

/-- A pen-state operation is the one its own status selects, under its row's variant. -/
theorem decodePen_encode {v : Byte} (henc : encode i = .status v) (hwf : i.wellFormed = true) (hsel : i.selectedIn c = true) :
    decodePen (variantOfBits c.variant) v = .ok i := by
  cases i <;> cases henc <;> rw [beq_iff_eq.mp hsel, decodePen]
  case penToggleA => rfl
  case penHoldA => rw [if_neg (bne_iff_ne.mp hwf)]
  case penDownB => rfl
  case penUpB => rfl
  case penHoldB =>
    simp only [Instr.wellFormed, Bool.and_eq_true, bne_iff_ne] at hwf
    rw [if_neg hwf.1, if_neg hwf.2]

/-! ### Encoding what a unit decodes to -/

/-- The byte decoder answers a well-formed operation whose row is selected and whose byte is the one decoded (R60). -/
theorem decodeByte_sound (hs : (variantOfBits c.variant).specified = true) (b : Byte) :
    (decodeByte c b).wellFormed = true ∧ (decodeByte c b).position = .byteStep ∧ (decodeByte c b).selectedIn c = true
      ∧ encode (decodeByte c b) = .byte b := by
  rw [decodeByte_of_specified hs]
  split_ifs with h43 h0 hb h1 hb h41
  · exact ⟨rfl, rfl, by simp [Instr.selectedIn, hs, h43], rfl⟩
  · exact ⟨rfl, rfl, by simp [Instr.selectedIn, hs, h0], congrArg _ hb.symm⟩
  · exact ⟨bne_iff_ne.mpr hb, rfl, by simp [Instr.selectedIn, hs, h0], rfl⟩
  · exact ⟨rfl, rfl, by simp [Instr.selectedIn, hs, h1], congrArg _ hb.symm⟩
  · exact ⟨bne_iff_ne.mpr hb, rfl, by simp [Instr.selectedIn, hs, h1], rfl⟩
  · exact ⟨rfl, rfl, by simp [Instr.selectedIn, hs, h41, show 2 ≤ c.fillCount.toNat by omega], rfl⟩
  · exact ⟨rfl, rfl, by simp [Instr.selectedIn, hs, show c.fillCount.toNat = 42 by omega], rfl⟩

theorem decodeHeader_sound (h : HeaderPair) :
    (decodeHeader h).wellFormed = true ∧ (decodeHeader h).position = .frameCheck ∧ (decodeHeader h).selectedIn c = true
      ∧ encode (decodeHeader h) = .header h := by
  unfold decodeHeader
  split_ifs with hh
  · exact ⟨rfl, rfl, rfl, congrArg _ hh.symm⟩
  · exact ⟨bne_iff_ne.mpr hh, rfl, rfl, rfl⟩

theorem decodePen_sound {v : Byte} (h : decodePen (variantOfBits c.variant) v = .ok i) :
    i.wellFormed = true ∧ i.position = .pen ∧ i.selectedIn c = true ∧ encode i = .status v := by
  cases hv : variantOfBits c.variant <;> rw [hv] at h
  case revisionA =>
    cases h
    split_ifs with h2
    · exact ⟨rfl, rfl, beq_iff_eq.mpr hv, congrArg _ h2.symm⟩
    · exact ⟨bne_iff_ne.mpr h2, rfl, beq_iff_eq.mpr hv, rfl⟩
  case revisionB =>
    cases h
    split_ifs with h3 h0
    · exact ⟨rfl, rfl, beq_iff_eq.mpr hv, congrArg _ h3.symm⟩
    · exact ⟨rfl, rfl, beq_iff_eq.mpr hv, congrArg _ h0.symm⟩
    · exact ⟨by simp [Instr.wellFormed, h3, h0], rfl, beq_iff_eq.mpr hv, rfl⟩
  case legacy => cases h
  case reserved => cases h

theorem decodeChecksum_sound (h : decodeChecksum (variantOfBits c.variant) = .ok i) :
    i.wellFormed = true ∧ i.position = .checksum ∧ i.selectedIn c = true ∧ encode i = .frame := by
  cases hv : variantOfBits c.variant <;> rw [hv] at h <;> cases h
  case revisionA => exact ⟨rfl, rfl, beq_iff_eq.mpr hv, rfl⟩
  case revisionB => exact ⟨rfl, rfl, beq_iff_eq.mpr hv, rfl⟩

/-- The two bits of a variant determine it and are determined by it (R24). -/
theorem bitsOfVariant_variantOfBits (v : BitVec 2) : bitsOfVariant (variantOfBits v) = v := by
  revert v
  decide

theorem decodeConfig_sound {v : BitVec 2} (h : decodeConfig (variantOfBits v) = .ok i) :
    i.wellFormed = true ∧ i.position = .config ∧ i.selectedIn c = true ∧ encode i = .cfg v := by
  have hbits := bitsOfVariant_variantOfBits v
  cases hv : variantOfBits v <;> rw [hv] at h hbits <;> cases h
  case legacy => exact ⟨rfl, rfl, rfl, congrArg _ hbits⟩
  case reserved => exact ⟨rfl, rfl, rfl, congrArg _ hbits⟩

end Encoding

/-- Settles O58: position by position; at the byte level and at the pen position the row's condition decides. -/
theorem decodeOfEncodeIsIdentity : Obligations.DecodeOfEncodeIsIdentity := by
  intro i c hwf hsel
  cases i with
  | overflow | hdr0Accept | hdr0Skip | hdr1Accept | hdr1Resync | append | appendLast =>
    exact congrArg Except.ok (decodeByte_encode rfl rfl hwf hsel)
  | penToggleA | penHoldA | penDownB | penUpB | penHoldB => exact decodePen_encode rfl hwf hsel
  | csumXor | csumAdd =>
    show decodeChecksum (variantOfBits c.variant) = _
    rw [beq_iff_eq.mp hsel]
    rfl
  | frameReady => rfl
  | frameDrop header => exact congrArg Except.ok (if_neg (bne_iff_ne.mp hwf))
  | feed | lenGuard | select | extract | emit | decode | legacyRefuse | reservedRefuse => rfl

/-- Settles O59: each position that reads the unit decodes it soundly; any other unit decodes to nothing. -/
theorem encodeOfDecodeIsIdentity : Obligations.EncodeOfDecodeIsIdentity := by
  intro p c u i hs h
  cases p with
  | byteStep =>
    cases u <;> cases h
    exact decodeByte_sound hs _
  | frameCheck =>
    cases u <;> cases h
    exact decodeHeader_sound _
  | config =>
    cases u with
    | cfg v => exact decodeConfig_sound h
    | _ => cases h
  | checksum =>
    cases u with
    | frame => exact decodeChecksum_sound h
    | _ => cases h
  | pen =>
    cases u with
    | status v => exact decodePen_sound h
    | _ => cases h
  | feed | decode | lenGuard | select | extract | emit =>
    cases u <;> cases h
    exact ⟨rfl, rfl, rfl, rfl⟩

end Sys2Proof

/-! PROOFS. The opcode table (spec/30_encoding.md R77): which rows apply to a unit, and that the rows read in priority order name the
operation that the decoder answers. -/

namespace Sys2Proof

section Table

variable {c : Context} {b : Byte}

/-! ### The rows of the opcode table (R77) -/

/-- A raw byte under the mask 0xFF matches the pattern of a byte exactly when it is that byte. -/
theorem byteUnit_masked_eq_iff (b p : Byte) : b.setWidth 16 &&& 0xFF = p.setWidth 16 ↔ b = p := by
  have hmask : b.setWidth 16 &&& 0xFF = b.setWidth 16 := by
    rw [show (0xFF : BitVec 16) = (BitVec.allOnes 8).setWidth 16 from rfl, ← BitVec.setWidth_and, BitVec.and_allOnes]
  rw [hmask]
  exact ⟨fun h => by simpa using congrArg (BitVec.setWidth 8) h, fun h => h ▸ rfl⟩

theorem byteUnit_matches_stUpB : b.setWidth 16 &&& 255#16 = 0#16 ↔ b = Config.stUpB := byteUnit_masked_eq_iff b 0x00
theorem byteUnit_matches_hdr0 : b.setWidth 16 &&& 255#16 = 2#16 ↔ b = Config.hdr0 := byteUnit_masked_eq_iff b 0x02
theorem byteUnit_matches_stToggleA : b.setWidth 16 &&& 255#16 = 2#16 ↔ b = Config.stToggleA := byteUnit_masked_eq_iff b 0x02
theorem byteUnit_matches_stDownB : b.setWidth 16 &&& 255#16 = 3#16 ↔ b = Config.stDownB := byteUnit_masked_eq_iff b 0x03
theorem byteUnit_matches_hdr1 : b.setWidth 16 &&& 255#16 = 5#16 ↔ b = Config.hdr1 := byteUnit_masked_eq_iff b 0x05

/-- The stored header under the mask 0xFFFF matches the signature's pattern exactly when it is the signature. -/
theorem header_matches_signature (h : HeaderPair) : h &&& 65535#16 = 1282#16 ↔ h = Config.signature := by
  rw [show h &&& 65535#16 = h from BitVec.and_allOnes]
  rfl

/-- The five `fill_count` ranges of the byte-level rows (R60). -/
theorem fillCount_ranges (n : BitVec 6) :
    (43 ≤ n.toNat ∧ n.toNat ≤ 63) ∨ n.toNat = 0 ∨ n.toNat = 1 ∨ (2 ≤ n.toNat ∧ n.toNat ≤ 41) ∨ n.toNat = 42 := by
  omega

/-- In each range the patterns of the rows for that range are exclusive and cover every byte. -/
theorem one_byteRow_applies (c : Context) (b : Byte) :
    ((byteRows.take 7).filter (fun r => r.applies .byte8 c (b.setWidth 16))).length = 1 := by
  rcases fillCount_ranges c.fillCount with ⟨hlo, hhi⟩ | h0 | h1 | ⟨hlo, hhi⟩ | h42
  · simp [byteRows, Row.applies, hlo, hhi, show c.fillCount.toNat ≠ 0 by omega, show ¬ c.fillCount.toNat ≤ 1 by omega,
      show ¬ c.fillCount.toNat ≤ 41 by omega, show ¬ c.fillCount.toNat ≤ 42 by omega]
  · by_cases hb : b = Config.hdr0 <;> simp [byteRows, Row.applies, byteUnit_matches_hdr0, h0, hb]
  · by_cases hb : b = Config.hdr1 <;> simp [byteRows, Row.applies, byteUnit_matches_hdr1, h1, hb]
  · simp [byteRows, Row.applies, hlo, hhi, show c.fillCount.toNat ≠ 0 by omega, show ¬ c.fillCount.toNat ≤ 1 by omega,
      show ¬ 43 ≤ c.fillCount.toNat by omega, show ¬ 42 ≤ c.fillCount.toNat by omega]
  · simp [byteRows, Row.applies, h42]

/-- The byte-level rows, read in order, name the operation that the byte decoder answers (R60). -/
theorem lookupTable_byte (hs : (variantOfBits c.variant).specified = true) (b : Byte) :
    lookupTable .byte8 c (b.setWidth 16) = some (decodeByte c b).mnemonic := by
  rw [lookupTable, opcodeTable]
  rcases fillCount_ranges c.fillCount with ⟨hlo, hhi⟩ | h0 | h1 | ⟨hlo, hhi⟩ | h42
  · simp [decodeByte_of_overrun hs hlo, byteRows, Row.applies, Instr.mnemonic, hlo, hhi]
  · rw [decodeByte_of_zero hs h0]
    by_cases hb : b = Config.hdr0 <;> simp [byteRows, Row.applies, Instr.mnemonic, byteUnit_matches_hdr0, h0, hb]
  · rw [decodeByte_of_one hs h1]
    by_cases hb : b = Config.hdr1 <;> simp [byteRows, Row.applies, Instr.mnemonic, byteUnit_matches_hdr1, h1, hb]
  · simp [decodeByte_of_payload hs hlo hhi, byteRows, Row.applies, Instr.mnemonic, hlo, hhi, show c.fillCount.toNat ≠ 0 by omega,
      show ¬ c.fillCount.toNat ≤ 1 by omega, show ¬ 43 ≤ c.fillCount.toNat by omega]
  · simp [decodeByte_of_last hs h42, byteRows, Row.applies, Instr.mnemonic, h42]

/-- Past the byte-level rows, every row of the table is open to every `fill_count`. -/
theorem fillCount_le_63 (n : BitVec 6) : n.toNat ≤ 63 := by omega

/-- A row of another format than the byte-level rows is looked up among the rest of the table. -/
theorem lookupTable_frameRows {f : Format} (hf : f ≠ .byte8) (c : Context) (u : BitVec 16) :
    lookupTable f c u = (frameRows.find? (fun r => r.applies f c u)).map (·.mnemonic) := by
  have hnone : byteRows.find? (fun r => r.applies f c u) = none := by
    simp [byteRows, Row.applies, hf.symm]
  rw [lookupTable, opcodeTable, List.find?_append, hnone, Option.none_or]

theorem lookupTable_header (c : Context) (h : HeaderPair) : lookupTable .frame43 c h = some (decodeHeader h).mnemonic := by
  rw [lookupTable_frameRows (by decide), decodeHeader]
  by_cases hh : h = Config.signature <;>
    simp [frameRows, Row.applies, Instr.mnemonic, header_matches_signature, hh, fillCount_le_63]

theorem lookupTable_status {v : Byte} {i : Instr} (h : decodePen (variantOfBits c.variant) v = .ok i) :
    lookupTable .crec c (v.setWidth 16) = some i.mnemonic := by
  rw [lookupTable_frameRows (by decide)]
  cases hv : variantOfBits c.variant <;> rw [hv] at h <;> cases h
  case revisionA =>
    by_cases h2 : v = Config.stToggleA <;>
      simp [frameRows, Row.applies, Instr.mnemonic, byteUnit_matches_stToggleA, hv, h2, fillCount_le_63]
  case revisionB =>
    by_cases h3 : v = Config.stDownB
    · simp [frameRows, Row.applies, Instr.mnemonic, byteUnit_matches_stDownB, hv, h3, fillCount_le_63]
    · by_cases h0 : v = Config.stUpB <;>
        simp [frameRows, Row.applies, Instr.mnemonic, byteUnit_matches_stDownB, byteUnit_matches_stUpB, hv,
          h3, h0, show Config.stUpB ≠ Config.stDownB by decide, fillCount_le_63]

theorem lookupTable_config {v : BitVec 2} {i : Instr} (h : decodeConfig (variantOfBits v) = .ok i) :
    lookupTable .cfg c (v.setWidth 16) = some i.mnemonic := by
  have hbits := bitsOfVariant_variantOfBits v
  rw [lookupTable_frameRows (by decide)]
  cases hv : variantOfBits v <;> rw [hv] at h hbits <;> cases h <;>
    simp [frameRows, Row.applies, Instr.mnemonic, ← hbits, bitsOfVariant, fillCount_le_63]

end Table

/-- Settles O56: in each of the five `fill_count` ranges. -/
theorem byteClassesPartitionTheBytes : Obligations.ByteClassesPartitionTheBytes := one_byteRow_applies

/-- Settles O57: one lookup for each format of the table. -/
theorem decoderReadsTheTable : Obligations.DecoderReadsTheTable :=
  ⟨fun _ b hs => lookupTable_byte hs b, lookupTable_header, fun _ _ _ h => lookupTable_status h, fun _ _ _ h => lookupTable_config h⟩

/-- Settles O55: the words are fixed, so the decoder runs on them. -/
theorem specWordsDecodeAsTabled : Obligations.SpecWordsDecodeAsTabled := by
  unfold Obligations.SpecWordsDecodeAsTabled
  decide

end Sys2Proof

/-! PROOFS. The operations one by one (spec/40_frame_assembler.md section 2, 41_checksum.md, 42_contact_extract.md, 43_pen_state.md): what
each answers in a specified session, as an equation. -/

namespace Sys2Proof.Machine

section Operations

variable {s : State} {f : Nat → Byte}

theorem specified_of_variant_eq {v : Variant} (h : s.variant = v) (hv : v.specified = true) : Specified s := by
  rwa [Specified, h]

/-! ### The byte-level operations that discard the byte, and FRAME_DROP (R91, R93, R95, R98) -/

/-- The state that a step leaves which stores nothing, raises one condition and moves to a `fill_count`. -/
def discarded (o : FrameOutcome) (c : Condition) (n : BitVec 6) (s : State) : State :=
  (s.setFill n).setOut (stepOutput o (flagged c))

theorem exec_overflow_eq (hs : Specified s) (b : Byte) :
    exec (.overflow b) s = .next (discarded .overflow .bufferOverrun 0 s) :=
  inSession_of_specified hs _

theorem exec_hdr0Skip_eq (hs : Specified s) (b : Byte) :
    exec (.hdr0Skip b) s = .next (discarded .incomplete .headerMismatch s.fillCount s) :=
  inSession_of_specified hs _

theorem exec_hdr1Resync_eq (hs : Specified s) (b : Byte) :
    exec (.hdr1Resync b) s = .next (discarded .resynced .headerMismatch 0 s) :=
  inSession_of_specified hs _

theorem exec_frameDrop_eq (hs : Specified s) (h : HeaderPair) :
    exec (.frameDrop h) s
      = .next ((s.setFill 0).setOut { s.out with outcome := some .resynced, diag := { s.out.diag with headerMismatch := true } }) :=
  inSession_of_specified hs _

/-! ### LEN_GUARD (R140) -/

theorem lenGuard_short (hs : Specified s) {n : BitVec 6} (h : n.toNat < 2) : lenGuard n s = .next (.ended s) := by
  rw [lenGuard, inSession_of_specified hs, if_pos h]

theorem lenGuard_long (hs : Specified s) {n : BitVec 6} (h : 2 ≤ n.toNat) : lenGuard n s = .next (.going () s) := by
  rw [lenGuard, inSession_of_specified hs, if_neg (by omega)]

theorem exec_lenGuard_eq (hs : Specified s) (n : BitVec 6) : exec (.lenGuard n) s = .next s := by
  show stateOf (lenGuard n s) = .next s
  rcases Nat.lt_or_ge n.toNat 2 with h | h
  · rw [lenGuard_short hs h]
    rfl
  · rw [lenGuard_long hs h]
    rfl

/-! ### The checksum operations (R110 to R113) -/

theorem HoldsFrame.checksumBy_match (h : HoldsFrame s f) (hs : Specified s) {op : Byte → Byte → Byte}
    (hc : (List.range 42).foldl (fun c k => op c (f k)) s.params.csumSeed = f 42) :
    Machine.checksumBy op s = .next (.going () s) := by
  rw [h.checksumBy hs, h.settleChecksum, if_pos hc]

theorem HoldsFrame.checksumBy_mismatch (h : HoldsFrame s f) (hs : Specified s) {op : Byte → Byte → Byte} {c : Byte}
    (hfold : (List.range 42).foldl (fun c k => op c (f k)) s.params.csumSeed = c) (hc : c ≠ f 42) :
    Machine.checksumBy op s
      = .next (if checksumRejects s = true then .ended (raiseMismatch c (f 42) s) else .going () (raiseMismatch c (f 42) s)) := by
  rw [h.checksumBy hs, h.settleChecksum, hfold, if_neg hc]

/-- The two checksum operations differ in their fold alone: a match changes nothing, a mismatch is raised with its two values, and
the policy decides whether the decoding goes on. -/
theorem HoldsFrame.checksumBy_compares (h : HoldsFrame s f) (hs : Specified s) {op : Byte → Byte → Byte} {c : Byte}
    (hfold : (List.range 42).foldl (fun c k => op c (f k)) s.params.csumSeed = c) :
    (c = f 42 → Machine.checksumBy op s = .next (.going () s) ∧ stateOf (Machine.checksumBy op s) = .next s)
      ∧ ∀ t, t = raiseMismatch c (f 42) s → c ≠ f 42 →
          Machine.checksumBy op s = .next (if checksumRejects s = true then .ended t else .going () t)
            ∧ stateOf (Machine.checksumBy op s) = .next t := by
  constructor
  · intro hc
    have hgo := h.checksumBy_match hs (hfold.trans hc)
    exact ⟨hgo, by rw [hgo]; rfl⟩
  · rintro t rfl hc
    have hgo := h.checksumBy_mismatch hs hfold hc
    refine ⟨hgo, ?_⟩
    rw [hgo]
    split <;> rfl

/-- Exclusive or commutes with a mask, bit by bit. -/
theorem xor_masked (a b m : Byte) : (a ^^^ b) &&& m = (a &&& m) ^^^ (b &&& m) := by
  ext i hi
  simp [Bool.and_xor_distrib_right]

/-- The fold of masked bytes is the masked fold. -/
theorem foldl_xor_masked (g : Nat → Byte) (m : Byte) (ks : List Nat) (acc : Byte) :
    ks.foldl (fun c k => c ^^^ (g k &&& m)) (acc &&& m) = ks.foldl (fun c k => c ^^^ g k) acc &&& m := by
  induction ks generalizing acc with
  | nil => rfl
  | cons k ks ih => rw [List.foldl_cons, List.foldl_cons, ← ih, xor_masked]

theorem xorOfFrame_masked (g : Nat → Byte) (m : Byte) : xorOfFrame 0 (fun k => g k &&& m) = xorOfFrame 0 g &&& m := by
  have hseed : (0 : Byte) &&& m = 0 := BitVec.zero_and
  rw [xorOfFrame, xorOfFrame, ← foldl_xor_masked, hseed]

/-- A byte within the 7-bit mask is below 0x80. -/
theorem toNat_lt_of_masked {v : Byte} (h : v &&& 0x7F = v) : v.toNat < 0x80 := by
  have hle : (v &&& 0x7F).toNat ≤ 0x7F := by
    rw [BitVec.toNat_and]
    exact Nat.and_le_right
  rw [h] at hle
  omega

/-! ### SELECT and EXTRACT (R120 to R122) -/

theorem allSlots_getElem (j : Nat) (hj : j < allSlots.length) : allSlots[j] = ⟨j, hj⟩ := by
  have hall : ∀ i : Fin 6, allSlots[i.val]'i.isLt = i := by decide
  exact hall ⟨j, hj⟩

/-- The scan stops at the lowest slot that passes. -/
theorem find_allSlots_eq_some {p : Fin 6 → Bool} {i : Fin 6} (hi : p i = true) (hlow : ∀ j, j < i → p j = false) :
    allSlots.find? p = some i := by
  rw [List.find?_eq_some_iff_getElem]
  refine ⟨hi, i.val, i.isLt, allSlots_getElem i.val i.isLt, fun j hj => ?_⟩
  rw [allSlots_getElem, hlow _ hj]
  rfl

theorem find_allSlots_eq_none {p : Fin 6 → Bool} (h : ∀ j, p j = false) : allSlots.find? p = none := by
  rw [List.find?_eq_none]
  intro j _
  rw [h j]
  decide

theorem HoldsFrame.extractRecord (h : HoldsFrame s f) (hs : Specified s) (i : Fin 6) :
    Machine.extractRecord i s
      = .next (.going { status := f (5 + 6 * i.val)
                        x := f (5 + 6 * i.val + 3) ++ f (5 + 6 * i.val + 2)
                        y := f (5 + 6 * i.val + 5) ++ f (5 + 6 * i.val + 4) } s) := by
  rw [Machine.extractRecord, inSession_of_specified hs, h.recordOf, withRead_ok]

/-! ### The RevisionA pen-state operations (R130, R131) -/

theorem decodePen_revisionA_toggle (hv : s.variant = .revisionA) : decodePen s.variant 0x02 = .ok .penToggleA := by
  rw [hv]
  rfl

theorem exec_penToggleA_eq (hs : Specified s) : exec .penToggleA s = .next (s.setPen (!s.penDown)) :=
  inSession_of_specified hs _

theorem exec_penHoldA_eq (hs : Specified s) (status : Byte) : exec (.penHoldA status) s = .next s :=
  inSession_of_specified hs _

end Operations

/-- Settles O1: the operation raises BufferOverrun alone, whatever the byte. -/
theorem overflowDropsTheByte : Obligations.OverflowDropsTheByte := fun _ b hs _ => exec_overflow_eq hs b

/-- Settles O3: `fill_count` is set to the value it has. -/
theorem hdr0SkipDiscardsTheByte : Obligations.Hdr0SkipDiscardsTheByte := fun _ b hs _ _ => exec_hdr0Skip_eq hs b

/-- Settles O5: the operation does not look at the byte that selects it. -/
theorem hdr1ResyncDiscardsBothBytes : Obligations.Hdr1ResyncDiscardsBothBytes := fun _ b hs _ _ => exec_hdr1Resync_eq hs b

/-- Settles O10: the operation does not read the header that selects it. -/
theorem frameDropOnlyRestartsTheHunt : Obligations.FrameDropOnlyRestartsTheHunt := fun _ h hs _ => exec_frameDrop_eq hs h

/-- Settles O14: the two sides of the length guard, which writes nothing. -/
theorem lenGuardEndsShortFrames : Obligations.LenGuardEndsShortFrames :=
  fun _ n hs => ⟨lenGuard_short hs, lenGuard_long hs, exec_lenGuard_eq hs n⟩

/-- Settles O16: the comparison with the fold by exclusive or. -/
theorem csumXorComparesTheFold : Obligations.CsumXorComparesTheFold :=
  fun _ _ hs h => h.checksumBy_compares hs rfl

/-- Settles O17: the comparison with the fold by addition. -/
theorem csumAddComparesTheSum : Obligations.CsumAddComparesTheSum :=
  fun _ _ hs h => h.checksumBy_compares hs rfl

/-- Settles O18: the permitted seed is 0, so the appended byte is the fold that the operation computes. -/
theorem appendedChecksumIsAccepted : Obligations.AppendedChecksumIsAccepted := by
  intro s f hs hp h
  have hseed := seed_zero hp
  refine ⟨fun hf => ((csumAddComparesTheSum s f hs h).1 ?_).2, fun hf => ((csumXorComparesTheFold s f hs h).1 ?_).2⟩
  · rw [hseed, hf]
  · rw [hseed, hf]

/-- Settles O19: the masked bytes satisfy the checksum that the raw ones do. -/
theorem xorChecksumSurvivesTheMask : Obligations.XorChecksumSurvivesTheMask := by
  intro s g hs hp h hg
  refine (appendedChecksumIsAccepted s _ hs hp h).2 ?_
  rw [xorOfFrame_masked, hg]

/-- Settles O20: a stored byte without bit 7 is below 0x80 and so differs from the sum. -/
theorem highSumIsAlwaysFlagged : Obligations.HighSumIsAlwaysFlagged := by
  intro s f hv hpol h hstored hsum
  have hne : sumOfFrame s.params.csumSeed f ≠ f 42 := by
    intro heq
    have hlt := toNat_lt_of_masked hstored
    rw [heq] at hsum
    omega
  have hpass : checksumRejects s = false := by simp [checksumRejects, hv, hpol]
  obtain ⟨hgo, hexec⟩ := (csumAddComparesTheSum s f (specified_of_variant_eq hv rfl) h).2 _ rfl hne
  rw [hpass] at hgo
  exact ⟨_, hgo, hexec, rfl⟩

/-- Settles O21: the scan finds the lowest slot with `id` 0. -/
theorem selectTakesTheFirstActiveSlot : Obligations.SelectTakesTheFirstActiveSlot := by
  intro s f i hs h hi hlow
  have hfind : allSlots.find? (fun j => f (6 + 6 * j.val) == 0x00) = some i :=
    find_allSlots_eq_some (beq_iff_eq.mpr hi) fun j hj => beq_eq_false_iff_ne.mpr (hlow j hj)
  have hsel : selectSlot s = .next (.going i s) := by rw [h.selectSlot hs, hfind]
  exact ⟨hsel, congrArg stateOf hsel⟩

/-- Settles O22: the scan finds nothing. -/
theorem selectWithNoActiveSlotEndsDecoding : Obligations.SelectWithNoActiveSlotEndsDecoding := by
  intro s f hs h hnone
  have hfind : allSlots.find? (fun j => f (6 + 6 * j.val) == 0x00) = none :=
    find_allSlots_eq_none fun j => beq_eq_false_iff_ne.mpr (hnone j)
  have hsel : selectSlot s = .next (.ended (raise .noActiveContact s)) := by rw [h.selectSlot hs, hfind]
  exact ⟨_, hsel, congrArg stateOf hsel, rfl⟩

/-- Settles O23: the record of the slot, byte by byte. -/
theorem extractReadsTheSelectedSlot : Obligations.ExtractReadsTheSelectedSlot := by
  rintro s f i base hs h rfl
  have hrec := h.extractRecord hs i
  exact ⟨hrec, congrArg stateOf hrec⟩

/-- Settles O24: the selected row inverts the pen, so `EMIT` runs on the state with the pen inverted. -/
theorem penToggleInvertsThePen : Obligations.PenToggleInvertsThePen := by
  intro s hv
  have hs := specified_of_variant_eq hv rfl
  refine ⟨decodePen_revisionA_toggle hv, exec_penToggleA_eq hs, fun x y => ?_⟩
  rw [exec_penToggleA_eq hs, andThen_next]
  exact exec_emit_eq (s := s.setPen !s.penDown) hs x y

/-- Settles O25: the row changes nothing, whatever the status. -/
theorem penHoldAKeepsThePen : Obligations.PenHoldAKeepsThePen :=
  fun _ status hv _ => exec_penHoldA_eq (specified_of_variant_eq hv rfl) status

/-- Settles O28: the decoded row is the operation that `DECODE` runs, which is the transition of the table. -/
theorem penOperationsFollowTheTable : Obligations.PenOperationsFollowTheTable := fun _ _ _ h => exec_of_decodePen h

/-- Settles O29: `EMIT` writes the event and nothing else. -/
theorem emitReportsThePenAfterTheTransition : Obligations.EmitReportsThePenAfterTheTransition := fun _ x y hs => exec_emit_eq hs x y

end Sys2Proof.Machine

/-! PROOFS. The composite `DECODE` (spec/43_pen_state.md R140, R141): on the bytes of a frame the sequence of operations decides what the
pseudocode does, whatever the variant. -/

namespace Sys2Proof.Machine

section Decode

variable {s : State} {f : Nat → Byte} {n : BitVec 6}

/-! ### The variant's checksum -/

/-- The checksum that the session's variant computes over frame bytes 0..41 (R68, R110, R111). -/
def sessionChecksum (s : State) (f : Nat → Byte) : Byte :=
  match s.variant with
  | .revisionB => sumOfFrame s.params.csumSeed f
  | .legacy | .revisionA | .reserved => xorOfFrame s.params.csumSeed f

theorem HoldsFrame.runChecksum (h : HoldsFrame s f) (hs : Specified s) :
    Machine.runChecksum s = Machine.settleChecksum (sessionChecksum s f) s := by
  rw [Machine.runChecksum, sessionChecksum]
  cases hv : s.variant with
  | revisionA | revisionB => exact h.checksumBy hs _
  | legacy | reserved => simp [Specified, hv, Variant.specified] at hs

/-- In a specified session the decoder as one function takes the variant's checksum and policy. -/
theorem decodeFor_of_specified (hs : Specified s) (n : Nat) (f : Nat → Byte) :
    decodeFor s n f = decodeFrame s.variant (sessionChecksum s f) (checksumRejects s) n f s.penDown := by
  rw [decodeFor, sessionChecksum, checksumRejects]
  cases hv : s.variant with
  | revisionA => simp [show (Variant.revisionA == .revisionB) = false from rfl]
  | revisionB => simp [show (Variant.revisionB == .revisionA) = false from rfl]
  | legacy | reserved => simp [Specified, hv, Variant.specified] at hs

/-! ### From the slot scan to the event (R68, orders 4 to 7) -/

/-- What the decoder leaves that has selected a slot: the pen moved by its status, and the event. -/
def reportedSlot (f : Nat → Byte) (i : Nat) (s : State) : State :=
  emitEvent (f (5 + 6 * i + 3) ++ f (5 + 6 * i + 2)) (f (5 + 6 * i + 5) ++ f (5 + 6 * i + 4))
    (s.setPen (penTransition s.variant (f (5 + 6 * i)) s.penDown))

theorem HoldsFrame.extractAndReport (h : HoldsFrame s f) (hs : Specified s) (i : Fin 6) :
    whileGoing (Machine.extractRecord i s) reportRecord = .next (.going () (reportedSlot f i.val s)) := by
  rw [h.extractRecord hs, whileGoing_going, reportRecord, runPenOperation_eq hs, andThen_next]
  exact congrArg (fun o => andThen o fun u => Host.Outcome.next (Progress.going () u))
    (exec_emit_eq (s := s.setPen (penTransition s.variant (f (5 + 6 * i.val)) s.penDown)) hs _ _)

/-- The slot scan and the operations after it. -/
theorem HoldsFrame.scanAndReport (h : HoldsFrame s f) (hs : Specified s) :
    stateOf (whileGoing (Machine.selectSlot s) fun slot u => whileGoing (Machine.extractRecord slot u) reportRecord)
      = .next (match [0, 1, 2, 3, 4, 5].find? (fun i => f (6 + 6 * i) == 0x00) with
               | some i => reportedSlot f i s
               | none => raise .noActiveContact s) := by
  rw [h.selectSlot hs, find_slot (fun i => f (6 + 6 * i) == 0x00)]
  cases allSlots.find? (fun i => f (6 + 6 * i.val) == 0x00) with
  | none => rfl
  | some i => exact congrArg stateOf (h.extractAndReport hs i)

/-! ### The pseudocode, case by case (R141) -/

/-- The values of a comparison where they differ. -/
def mismatchOf (computed stored : Byte) : Option ChecksumValues :=
  if computed = stored then none else some { computed := computed, stored := stored }

section Pseudocode

variable {v : Variant} {c : Byte} {reject : Bool} {m : Nat} {p : Bool}

/-- What the decoder decides that has selected a slot. -/
def slotDecision (v : Variant) (mismatch : Option ChecksumValues) (f : Nat → Byte) (i : Nat) (p : Bool) : Decoded :=
  { mismatch := mismatch
    noActiveContact := false
    event := some { x := f (5 + 6 * i + 3) ++ f (5 + 6 * i + 2), y := f (5 + 6 * i + 5) ++ f (5 + 6 * i + 4),
                    penDown := penTransition v (f (5 + 6 * i)) p }
    penDown := penTransition v (f (5 + 6 * i)) p }

theorem decodeFrame_short (hm : m < 2) :
    decodeFrame v c reject m f p = { mismatch := none, noActiveContact := false, event := none, penDown := p } :=
  if_pos hm

theorem decodeFrame_rejected (hm : 2 ≤ m) (hc : c ≠ f 42 ∧ reject = true) :
    decodeFrame v c reject m f p
      = { mismatch := mismatchOf c (f 42), noActiveContact := false, event := none, penDown := p } := by
  rw [decodeFrame, if_neg (by omega), if_pos hc, mismatchOf, if_neg hc.1]

theorem decodeFrame_noSlot (hm : 2 ≤ m) (hc : ¬(c ≠ f 42 ∧ reject = true))
    (hfind : [0, 1, 2, 3, 4, 5].find? (fun i => f (6 + 6 * i) == 0x00) = none) :
    decodeFrame v c reject m f p
      = { mismatch := mismatchOf c (f 42), noActiveContact := true, event := none, penDown := p } := by
  rw [decodeFrame, if_neg (by omega), if_neg hc, hfind, mismatchOf]

theorem decodeFrame_slot (hm : 2 ≤ m) (hc : ¬(c ≠ f 42 ∧ reject = true)) {i : Nat}
    (hfind : [0, 1, 2, 3, 4, 5].find? (fun i => f (6 + 6 * i) == 0x00) = some i) :
    decodeFrame v c reject m f p = slotDecision v (mismatchOf c (f 42)) f i p := by
  rw [decodeFrame, if_neg (by omega), if_neg hc, hfind, mismatchOf, slotDecision]

end Pseudocode

/-! ### A decision put into a state -/

/-- ChecksumMismatch raised with the values it is raised on, where there are any. -/
def recordMismatch (m : Option ChecksumValues) (s : State) : State :=
  match m with
  | some v => raiseMismatch v.computed v.stored s
  | none => s

/-- The comparison with the trailing byte records what differs, and the decoding ends there only by the policy (R112, R113). -/
theorem HoldsFrame.settleChecksum_record (h : HoldsFrame s f) (c : Byte) :
    Machine.settleChecksum c s
      = .next (if c ≠ f 42 ∧ checksumRejects s = true then .ended (recordMismatch (mismatchOf c (f 42)) s)
               else .going () (recordMismatch (mismatchOf c (f 42)) s)) := by
  rw [h.settleChecksum, mismatchOf]
  by_cases hc : c = f 42
  · simp [hc, recordMismatch]
  · simp [hc, recordMismatch]

theorem applyDecoded_ended (m : Option ChecksumValues) (c : Byte) (s : State) :
    applyDecoded { mismatch := m, noActiveContact := false, event := none, penDown := s.penDown } c s
      = recordMismatch m (reportCount (some c) s) := by
  cases m <;> simp [applyDecoded, recordMismatch, reportCount, raiseMismatch, Diag.withFlag, State.setPen, State.setOut]

theorem applyDecoded_noSlot (m : Option ChecksumValues) (c : Byte) (s : State) :
    applyDecoded { mismatch := m, noActiveContact := true, event := none, penDown := s.penDown } c s
      = raise .noActiveContact (recordMismatch m (reportCount (some c) s)) := by
  cases m <;> simp [applyDecoded, recordMismatch, reportCount, raise, raiseMismatch, Diag.withFlag, State.setPen, State.setOut]

theorem applyDecoded_slot (m : Option ChecksumValues) (c : Byte) (f : Nat → Byte) (i : Nat) (s : State) :
    applyDecoded (slotDecision s.variant m f i s.penDown) c s = reportedSlot f i (recordMismatch m (reportCount (some c) s)) := by
  cases m <;>
    simp [applyDecoded, slotDecision, recordMismatch, reportCount, raiseMismatch, Diag.withFlag, reportedSlot, emitEvent,
      State.setPen, State.setOut] <;>
    rfl

/-! ### DECODE -/

theorem execDecode_eq (hs : Specified s) (n : BitVec 6) :
    execDecode n s = stateOf (decodeSequence n (reportCount (countField s) s)) :=
  inSession_of_specified hs _

/-- A frame too short to decode leaves the count alone (R140). -/
theorem execDecode_short (hs : Specified s) (hn : n.toNat < 2) : execDecode n s = .next (reportCount (countField s) s) := by
  rw [execDecode_eq hs, decodeSequence, lenGuard_short (s := reportCount (countField s) s) hs hn]
  rfl

theorem decodeSequence_long (h : HoldsFrame s f) (hs : Specified s) (hn : 2 ≤ n.toNat) :
    decodeSequence n s
      = whileGoing (Machine.settleChecksum (sessionChecksum s f) s) fun _ u =>
          whileGoing (Machine.selectSlot u) fun slot w => whileGoing (Machine.extractRecord slot w) reportRecord := by
  rw [decodeSequence, lenGuard_long hs hn, whileGoing_going, h.runChecksum hs]

theorem recordMismatch_variant (m : Option ChecksumValues) (s : State) : (recordMismatch m s).variant = s.variant := by
  cases m <;> rfl

theorem recordMismatch_buffer (m : Option ChecksumValues) (s : State) : (recordMismatch m s).buffer = s.buffer := by
  cases m <;> rfl

/-- The refinement: length guard, checksum policy and slot scan decide alike. -/
theorem HoldsFrame.execDecode (h : HoldsFrame s f) (hs : Specified s) (n : BitVec 6) :
    Machine.execDecode n s = .next (applyDecoded (decodeFor s n.toNat f) (f 41) s) := by
  rw [decodeFor_of_specified hs]
  rcases Nat.lt_or_ge n.toNat 2 with hn | hn
  · rw [execDecode_short hs hn, h.countField, decodeFrame_short hn, applyDecoded_ended]
    rfl
  · have h1 : HoldsFrame (reportCount (some (f 41)) s) f := h
    have hsum : sessionChecksum (reportCount (some (f 41)) s) f = sessionChecksum s f := rfl
    rw [execDecode_eq hs, h.countField, decodeSequence_long h1 hs hn, h1.settleChecksum_record, hsum, reportCount_checksumRejects]
    by_cases hc : sessionChecksum s f ≠ f 42 ∧ checksumRejects s = true
    · rw [if_pos hc, decodeFrame_rejected hn hc, applyDecoded_ended]
      rfl
    · have h2 : HoldsFrame (recordMismatch (mismatchOf (sessionChecksum s f) (f 42)) (reportCount (some (f 41)) s)) f := by
        rw [HoldsFrame, recordMismatch_buffer]
        exact h1
      rw [if_neg hc, whileGoing_going, h2.scanAndReport (by rw [Specified, recordMismatch_variant]; exact hs)]
      cases hfind : [0, 1, 2, 3, 4, 5].find? (fun i => f (6 + 6 * i) == 0x00) with
      | none => rw [decodeFrame_noSlot hn hc hfind, applyDecoded_noSlot]
      | some i => rw [decodeFrame_slot hn hc hfind, applyDecoded_slot]

/-- What `FRAME_CHECK` hands to the decoder (R98). -/
theorem HoldsFrame.execFrameReady (h : HoldsFrame s f) (hs : Specified s) :
    Machine.execFrameReady s
      = .next (applyDecoded (decodeFor s 43 f) (f 41) ((s.setFill 0).setOut { s.out with outcome := some .frameReady })) := by
  rw [Machine.execFrameReady, inSession_of_specified hs]
  exact HoldsFrame.execDecode (s := setOutcome .frameReady (s.setFill 0)) h hs 43

end Decode

/-- Settles O30: guard, checksum policy and slot scan decide as the pseudocode does. -/
theorem decodeMeetsThePseudocode : Obligations.DecodeMeetsThePseudocode := fun _ n _ hs h => h.execDecode hs n

/-- Settles O9: the refinement of `DECODE` with `frame_len` 43. -/
theorem frameReadyRunsTheDecoder : Obligations.FrameReadyRunsTheDecoder := fun _ _ hs h => h.execFrameReady hs

/-- Settles O15: the guard ends the decoding before any cell is needed. -/
theorem shortFrameDecodesToNothing : Obligations.ShortFrameDecodesToNothing := fun _ _ hs hn => execDecode_short hs hn

end Sys2Proof.Machine

/-! PROOFS. `FEED` (spec/40_frame_assembler.md): it is the operation that the byte selects, and what a step can do is said once, case by
case (`FeedStep`); the facts about every step follow from the cases. -/

namespace Sys2Proof.Machine

section Feed

variable {s t u : State} {b : Byte} {f : Nat → Byte}

/-! ### The byte that completes a frame (R97, R98) -/

/-- The buffer once the 43rd byte is stored. -/
def lastStored (b : Byte) (s : State) : State := s.setBuffer (writeCell s.buffer 42 (b &&& s.params.dataMask))

/-- The outputs of a step that delivers a frame to the decoder. -/
def frameOutput (d : Decoded) (count : Byte) : StepOut :=
  { ack := true, outcome := some .frameReady, event := d.event,
    diag := { headerMismatch := false, bufferOverrun := false, checksumMismatch := d.mismatch.isSome,
              noActiveContact := d.noActiveContact, checksum := d.mismatch, count := some (some count) } }

/-- The state that a step leaves which completes a frame: the decoder's decision on the 43 bytes, and `fill_count` 0. -/
def completed (b : Byte) (f : Nat → Byte) (s : State) : State :=
  (((lastStored b s).setFill 0).setPen (decodeFor s 43 f).penDown).setOut (frameOutput (decodeFor s 43 f) (f 41))

theorem exec_appendLast_eq (hs : Specified s) (b : Byte) :
    exec (.appendLast b) s = frameCheck ((lastStored b s).setFill 43 |>.setOut StepOut.begun) := by
  show inSession s _ = _
  rw [inSession_of_specified hs, storeByte_of_lt (by decide)]
  rfl

/-- The decoder on outputs that hold nothing yet. -/
theorem applyDecoded_begun (d : Decoded) (c : Byte) (hout : s.out = StepOut.begun) :
    applyDecoded d c (s.setOut { s.out with outcome := some .frameReady }) = (s.setPen d.penDown).setOut (frameOutput d c) := by
  obtain ⟨m, nac, e, p⟩ := d
  rw [hout]
  cases m <;> cases e <;> simp [applyDecoded, frameOutput, StepOut.begun, Diag.clear, State.setPen, State.setOut]

/-- A frame with its header is decoded. -/
theorem exec_appendLast_frame (hs : Specified s) (h : HoldsFrame (lastStored b s) f) (h0 : f 0 = 0x02) (h1 : f 1 = 0x05) :
    exec (.appendLast b) s = .next (completed b f s) := by
  have hheader : f 1 ++ f 0 = Config.signature := (header_eq_signature _ _).mpr ⟨h0, h1⟩
  have hu : HoldsFrame ((lastStored b s).setFill 43 |>.setOut StepOut.begun) f := h
  rw [exec_appendLast_eq hs, frameCheck, hu.headerField, withRead_ok, if_pos hheader, hu.execFrameReady hs]
  exact congrArg Host.Outcome.next
    (applyDecoded_begun (s := ((lastStored b s).setFill 0).setOut StepOut.begun) (decodeFor s 43 f) (f 41) rfl)

/-- A frame without its header is dropped. -/
theorem exec_appendLast_badHeader (hs : Specified s) {lo hi : Byte} (hlo : readCell s.buffer 0 = some lo)
    (hhi : readCell s.buffer 1 = some hi) (hbad : ¬(lo = 0x02 ∧ hi = 0x05)) :
    exec (.appendLast b) s = .next (discarded .resynced .headerMismatch 0 (lastStored b s)) := by
  have hheader : headerField ((lastStored b s).setFill 43 |>.setOut StepOut.begun) = .ok (hi ++ lo) :=
    memRead2_eq_ok (by decide) ((readCell_writeCell_other _ _ (by decide)).trans hlo)
      ((readCell_writeCell_other _ _ (by decide)).trans hhi)
  have hne : hi ++ lo ≠ Config.signature := mt (header_eq_signature _ _).mp hbad
  rw [exec_appendLast_eq hs, frameCheck, hheader, withRead_ok, if_neg hne]
  exact inSession_of_specified hs _

/-- A two-byte read that answers has read both cells. -/
theorem memRead2_cells {a : Nat} {v : BitVec 16} (h : memRead2 s a = .ok v) :
    ∃ lo hi, readCell s.buffer a = some lo ∧ readCell s.buffer (a + 1) = some hi ∧ v = hi ++ lo := by
  unfold memRead2 at h
  split at h
  · cases h
  · next lo hlo =>
    split at h
    · cases h
    · next hi hhi =>
      cases h
      exact ⟨lo, hi, ((memRead1_eq_ok_iff s a lo).mp hlo).2, ((memRead1_eq_ok_iff s (a + 1) hi).mp hhi).2, rfl⟩

/-- A decoding past the length guard has all its 43 cells written: the checksum has read them (R65). -/
theorem execDecode_holdsFrame {n : BitVec 6} (hn : 2 ≤ n.toNat) (h : execDecode n s = .next t) : ∃ f, HoldsFrame s f := by
  obtain ⟨hs, _⟩ := inSession_eq_next h
  rw [execDecode_eq hs, decodeSequence, lenGuard_long (s := reportCount (countField s) s) hs hn, whileGoing_going] at h
  obtain ⟨p, hp, _⟩ := stateOf_eq_next h
  have hsum : ∃ q, runChecksum (reportCount (countField s) s) = .next q := by
    rcases whileGoing_eq_next hp with ⟨_, hsum, _⟩ | ⟨_, _, hsum, _⟩
    · exact ⟨_, hsum⟩
    · exact ⟨_, hsum⟩
  obtain ⟨q, hq⟩ := hsum
  obtain ⟨f, hf⟩ := runChecksum_holdsFrame hq
  exact ⟨f, hf⟩

/-- The two ways in which the last byte of a frame is answered. -/
theorem exec_appendLast_cases (h : exec (.appendLast b) s = .next t) :
    (∃ f, HoldsFrame (lastStored b s) f ∧ f 0 = 0x02 ∧ f 1 = 0x05 ∧ t = completed b f s)
      ∨ (∃ lo hi, readCell s.buffer 0 = some lo ∧ readCell s.buffer 1 = some hi ∧ ¬(lo = 0x02 ∧ hi = 0x05)
          ∧ t = discarded .resynced .headerMismatch 0 (lastStored b s)) := by
  have hs : Specified s := (inSession_eq_next (show execAppendLast b s = .next t from h)).1
  have hcheck := h
  rw [exec_appendLast_eq hs] at hcheck
  obtain ⟨v, hv, hcheck⟩ := withRead_eq_next hcheck
  obtain ⟨lo, hi, hlo, hhi, rfl⟩ := memRead2_cells hv
  by_cases hheader : lo = 0x02 ∧ hi = 0x05
  · rw [if_pos (show hi ++ lo = Config.signature from (header_eq_signature _ _).mpr hheader)] at hcheck
    obtain ⟨f, hf⟩ := execDecode_holdsFrame (by decide) (inSession_eq_next hcheck).2
    replace hf : HoldsFrame (lastStored b s) f := hf
    have h0 : f 0 = 0x02 := Option.some.inj ((hf 0 (by decide)).symm.trans (hheader.1 ▸ hlo))
    have h1 : f 1 = 0x05 := Option.some.inj ((hf 1 (by decide)).symm.trans (hheader.2 ▸ hhi))
    rw [exec_appendLast_frame hs hf h0 h1] at h
    cases h
    exact .inl ⟨f, hf, h0, h1, rfl⟩
  · have hlo' : readCell s.buffer 0 = some lo := (readCell_writeCell_other _ _ (by decide)).symm.trans hlo
    have hhi' : readCell s.buffer 1 = some hi := (readCell_writeCell_other _ _ (by decide)).symm.trans hhi
    rw [exec_appendLast_badHeader hs hlo' hhi' hheader] at h
    cases h
    exact .inr ⟨lo, hi, hlo', hhi', hheader, rfl⟩

/-! ### FEED -/

/-- The dispatch of `FEED` and the byte decoder's are the same chain (R60, R90). -/
theorem exec_feed_eq_decoded (s : State) (b : Byte) : exec (.feed b) s = exec (decodeByte s.context b) s := by
  show inSession s _ = _
  cases hv : s.variant with
  | legacy => simp [inSession_legacy hv, decodeByte, State.variant_eq, hv, exec, execLegacyRefuse]
  | reserved => simp [inSession_reserved hv, decodeByte, State.variant_eq, hv, exec, execReservedRefuse]
  | revisionA | revisionB =>
    have hs : Specified s := specified_of_variant_eq hv rfl
    rw [inSession_of_specified hs, decodeByte_of_specified (c := s.context) hs, State.context_eq]
    split_ifs <;> rfl

/-- What a step can do, case by case: the `fill_count` and the byte that it meets, and the state that it leaves. -/
inductive FeedStep (b : Byte) (s : State) : State → Prop
  | overrun (hfill : 43 ≤ s.fillCount.toNat) : FeedStep b s (discarded .overflow .bufferOverrun 0 s)
  | hdr0 (hfill : s.fillCount.toNat = 0) (hb : b = 0x02) : FeedStep b s (storedIncomplete 0 b 1 s)
  | skip (hfill : s.fillCount.toNat = 0) (hb : b ≠ 0x02) : FeedStep b s (discarded .incomplete .headerMismatch s.fillCount s)
  | hdr1 (hfill : s.fillCount.toNat = 1) (hb : b = 0x05) : FeedStep b s (storedIncomplete 1 b 2 s)
  | resync (hfill : s.fillCount.toNat = 1) (hb : b ≠ 0x05) : FeedStep b s (discarded .resynced .headerMismatch 0 s)
  | payload (hlo : 2 ≤ s.fillCount.toNat) (hhi : s.fillCount.toNat ≤ 41) :
      FeedStep b s (storedIncomplete s.fillCount.toNat b (s.fillCount + 1) s)
  | frame (f : Nat → Byte) (hfill : s.fillCount.toNat = 42) (hf : HoldsFrame (lastStored b s) f) (h0 : f 0 = 0x02)
      (h1 : f 1 = 0x05) : FeedStep b s (completed b f s)
  | badHeader (lo hi : Byte) (hfill : s.fillCount.toNat = 42) (hlo : readCell s.buffer 0 = some lo)
      (hhi : readCell s.buffer 1 = some hi) (hbad : ¬(lo = 0x02 ∧ hi = 0x05)) :
      FeedStep b s (discarded .resynced .headerMismatch 0 (lastStored b s))

/-- Each case is a step of a specified session. -/
theorem FeedStep.exec_feed (h : FeedStep b s t) (hs : Specified s) : exec (.feed b) s = .next t := by
  rw [exec_feed_eq_decoded]
  cases h with
  | overrun hfill => rw [decodeByte_of_overrun (c := s.context) hs hfill, exec_overflow_eq hs]
  | hdr0 hfill hb => rw [hb, show (0x02 : Byte) = Config.hdr0 from rfl, decodeByte_hdr0 hs hfill, exec_hdr0Accept_eq hs]
  | skip hfill hb => rw [decodeByte_hdr0Skip hs hfill hb, exec_hdr0Skip_eq hs]
  | hdr1 hfill hb => rw [hb, show (0x05 : Byte) = Config.hdr1 from rfl, decodeByte_hdr1 hs hfill, exec_hdr1Accept_eq hs]
  | resync hfill hb =>
    rw [decodeByte_of_one (c := s.context) hs hfill, if_neg (show b ≠ Config.hdr1 from hb), exec_hdr1Resync_eq hs]
  | payload hlo hhi => rw [decodeByte_append hs hlo hhi, exec_append_eq hs (by omega)]
  | frame f hfill hf h0 h1 => rw [decodeByte_of_last (c := s.context) hs hfill, exec_appendLast_frame hs hf h0 h1]
  | badHeader lo hi hfill hlo hhi hbad =>
    rw [decodeByte_of_last (c := s.context) hs hfill, exec_appendLast_badHeader hs hlo hhi hbad]

/-- Away from the last position every byte has its case. -/
theorem exists_feedStep_or_last (s : State) (b : Byte) : (∃ t, FeedStep b s t) ∨ s.fillCount.toNat = 42 := by
  rcases fillCount_ranges s.fillCount with ⟨hlo, _⟩ | h0 | h1 | ⟨hlo, hhi⟩ | h42
  · exact .inl ⟨_, .overrun hlo⟩
  · by_cases hb : b = 0x02
    · exact .inl ⟨_, .hdr0 h0 hb⟩
    · exact .inl ⟨_, .skip h0 hb⟩
  · by_cases hb : b = 0x05
    · exact .inl ⟨_, .hdr1 h1 hb⟩
    · exact .inl ⟨_, .resync h1 hb⟩
  · exact .inl ⟨_, .payload hlo hhi⟩
  · exact .inr h42

/-- A step that answers a next state is one of the cases. -/
theorem feedStep_of_exec (h : exec (.feed b) s = .next t) : Specified s ∧ FeedStep b s t := by
  have hs : Specified s := (inSession_eq_next (show execFeed b s = .next t from h)).1
  refine ⟨hs, ?_⟩
  rcases exists_feedStep_or_last s b with ⟨u, hu⟩ | h42
  · rw [hu.exec_feed hs] at h
    cases h
    exact hu
  · rw [exec_feed_eq_decoded, decodeByte_of_last (c := s.context) hs h42] at h
    rcases exec_appendLast_cases h with ⟨f, hf, h0, h1, rfl⟩ | ⟨lo, hi, hlo, hhi, hbad, rfl⟩
    · exact .frame f h42 hf h0 h1
    · exact .badHeader lo hi h42 hlo hhi hbad

/-! ### What every step does -/

/-- `fill_count` moves as R102 says. -/
theorem FeedStep.fillCount_eq (h : FeedStep b s t) : t.fillCount.toNat = fillAfter s.fillCount.toNat b := by
  rw [fillAfter]
  cases h with
  | overrun hfill => rw [if_neg (by omega), if_neg (by omega), if_neg (by omega)]; rfl
  | hdr0 hfill hb => rw [if_pos hfill, if_pos hb]; rfl
  | skip hfill hb => rw [if_pos hfill, if_neg hb]; exact hfill
  | hdr1 hfill hb => rw [if_neg (by omega), if_pos hfill, if_pos hb]; rfl
  | resync hfill hb => rw [if_neg (by omega), if_pos hfill, if_neg hb]; rfl
  | payload hlo hhi =>
    rw [if_neg (by omega), if_neg (by omega), if_pos hhi, storedIncomplete_fillCount, fillCount_add_one_toNat hhi]
  | frame f hfill hf h0 h1 => rw [if_neg (by omega), if_neg (by omega), if_neg (by omega)]; rfl
  | badHeader lo hi hfill hlo hhi hbad => rw [if_neg (by omega), if_neg (by omega), if_neg (by omega)]; rfl

/-- A step keeps the configuration, the parameters and the edges to come. -/
theorem FeedStep.keeps (h : FeedStep b s t) : t.cfg = s.cfg ∧ t.params = s.params ∧ t.inputs = s.inputs := by
  cases h <;> exact ⟨rfl, rfl, rfl⟩

theorem FeedStep.acknowledged (h : FeedStep b s t) : t.out.ack = true ∧ t.out.outcome.isSome = true := by
  cases h <;> exact ⟨rfl, rfl⟩

end Feed

/-- Settles O11: both chains compare `fill_count` and the raw byte alike, and a refused configuration is refused alike. -/
theorem feedExecutesTheDecodedOperation : Obligations.FeedExecutesTheDecodedOperation := exec_feed_eq_decoded

/-- Settles O13: in each case of a step. -/
theorem fillCountFollowsTheTable : Obligations.FillCountFollowsTheTable := fun _ _ _ h => (feedStep_of_exec h).2.fillCount_eq

/-- Settles O7: the stored cells are the frame `g`, whose header is the signature. -/
theorem appendLastDeliversTheFrame : Obligations.AppendLastDeliversTheFrame := by
  intro s b f g hs hfill hf h0 h1 hg hg42
  have hholds : HoldsFrame (lastStored b s) g := by
    intro k hk
    rw [lastStored, State.setBuffer_buffer, holdsFrame_store_last hf k hk]
    split
    · next hk42 => rw [hk42, hg42]
    · next hk42 => rw [hg k hk42]
  have hg0 : g 0 = 0x02 := (hg 0 (by decide)).trans h0
  have hg1 : g 1 = 0x05 := (hg 1 (by decide)).trans h1
  refine ⟨_, exec_appendLast_frame hs hholds hg0 hg1, rfl, hholds, fun a ha => readCell_writeCell_other _ _ ha, rfl, ?_, rfl, rfl, rfl⟩
  rw [← hg 41 (by decide)]
  rfl

/-- Settles O8: the header is read from cells 0 and 1, which the store at 42 leaves. -/
theorem appendLastDropsABadHeader : Obligations.AppendLastDropsABadHeader := by
  intro s b lo hi hs hfill hlo hhi hbad
  refine ⟨_, exec_appendLast_badHeader hs hlo hhi (by tauto), rfl, rfl, readCell_writeCell_same _ _ _,
    fun a ha => readCell_writeCell_other _ _ ha, ⟨rfl, rfl, rfl, rfl⟩⟩

end Sys2Proof.Machine

/-! PROOFS. The invariant of a session (spec/70_reset_and_hazards.md section 2): it holds after reset, every step keeps it, and from it no
step faults and the two guards are out of reach. -/

namespace Sys2Proof.Machine

section Invariant

variable {s t : State} {b : Byte} {f : Nat → Byte}

/-! ### The invariant field by field -/

/-- What the invariant says of the buffer and the parameters, whatever the position. -/
structure BufferInv (s : State) : Prop where
  bufferWf  : s.buffer.wf = true
  permitted : s.params.permitted = true
  masked    : ∀ k v, readCell s.buffer k = some v → v &&& s.params.dataMask = v

theorem Inv.bufferInv (hi : Inv s) : BufferInv s := ⟨hi.bufferWf, hi.permitted, hi.masked⟩

theorem BufferInv.of_eq (hi : BufferInv s) (hb : t.buffer = s.buffer) (hp : t.params = s.params) : BufferInv t := by
  obtain ⟨hwf, hperm, hmask⟩ := hi
  exact ⟨hb ▸ hwf, hp ▸ hperm, by rw [hb, hp]; exact hmask⟩

/-- Every byte is masked as it is stored (R43). -/
theorem BufferInv.store (hi : BufferInv s) {k : Nat} (hk : k < 43) (b : Byte) :
    BufferInv (s.setBuffer (writeCell s.buffer k (b &&& s.params.dataMask))) := by
  refine ⟨wf_writeCell _ hk hi.bufferWf, hi.permitted, fun j v hv => ?_⟩
  rw [State.setBuffer_buffer, readCell_writeCell] at hv
  split at hv
  · cases hv
    rw [State.setBuffer_params, BitVec.and_assoc, BitVec.and_self]
  · exact hi.masked j v hv

/-- At `fill_count` 0 the invariant says nothing of the position. -/
theorem BufferInv.inv_of_zero (hi : BufferInv s) (h0 : s.fillCount.toNat = 0) : Inv s where
  bufferWf := hi.bufferWf
  permitted := hi.permitted
  fillLe := by omega
  headerLo := by omega
  headerHi := by omega
  written := by omega
  masked := hi.masked

/-- The invariant speaks of the buffer, the parameters and the position alone. -/
theorem Inv.of_eq (hi : Inv s) (hb : t.buffer = s.buffer) (hp : t.params = s.params) (hf : t.fillCount = s.fillCount) : Inv t where
  bufferWf := hb ▸ hi.bufferWf
  permitted := hp ▸ hi.permitted
  fillLe := hf ▸ hi.fillLe
  headerLo := by rw [hb, hf]; exact hi.headerLo
  headerHi := by rw [hb, hf]; exact hi.headerHi
  written := by rw [hb, hf]; exact hi.written
  masked := by rw [hb, hp]; exact hi.masked

theorem inv_reset : Inv State.reset :=
  BufferInv.inv_of_zero ⟨rfl, rfl, fun _ _ h => by cases h⟩ rfl

/-! ### The steps keep it -/

/-- Storing at the position and moving on by one keeps the invariant, if the two header positions take the header bytes (R185 to
R189). -/
theorem Inv.storeNext (hi : Inv s) {n : BitVec 6} (hn : n.toNat = s.fillCount.toNat + 1) (hle : s.fillCount.toNat ≤ 41)
    (h0 : s.fillCount.toNat = 0 → b = 0x02) (h1 : s.fillCount.toNat = 1 → b = 0x05) :
    Inv (storedIncomplete s.fillCount.toNat b n s) := by
  have hbuf := hi.bufferInv.store (k := s.fillCount.toNat) (by omega) b
  have hcell : ∀ a, readCell (storedIncomplete s.fillCount.toNat b n s).buffer a
      = if a = s.fillCount.toNat then some (b &&& s.params.dataMask) else readCell s.buffer a :=
    fun a => readCell_writeCell _ _ _ _
  refine ⟨hbuf.bufferWf, hi.permitted, ?_, fun _ => ?_, fun h2 => ?_, fun k hk => ?_, hbuf.masked⟩
  · rw [storedIncomplete_fillCount, hn]
    omega
  · rw [hcell]
    split
    · next h => rw [h0 h.symm, hdr0_masked hi.permitted]
    · exact hi.headerLo (by omega)
  · rw [storedIncomplete_fillCount, hn] at h2
    rw [hcell]
    split
    · next h => rw [h1 h.symm, hdr1_masked hi.permitted]
    · exact hi.headerHi (by omega)
  · rw [storedIncomplete_fillCount, hn] at hk
    rw [hcell]
    split
    · rfl
    · exact hi.written k (by omega)

/-- A stored frame has the header that the invariant keeps in cells 0 and 1 (R187). -/
theorem Inv.storedHeader (hi : Inv s) (h42 : s.fillCount.toNat = 42) {lo hi' : Byte} (hlo : readCell s.buffer 0 = some lo)
    (hhi : readCell s.buffer 1 = some hi') : lo = 0x02 ∧ hi' = 0x05 :=
  ⟨Option.some.inj (hlo.symm.trans (hi.headerLo (by omega))), Option.some.inj (hhi.symm.trans (hi.headerHi (by omega)))⟩

/-- Every case of a step keeps the invariant; those that do not store at the position go to `fill_count` 0. -/
theorem FeedStep.keeps_inv (h : FeedStep b s t) (hi : Inv s) : Inv t := by
  cases h with
  | overrun hfill => exact absurd hi.fillLe (by omega)
  | hdr0 hfill hb =>
    rw [← hfill]
    exact hi.storeNext (by rw [hfill]; rfl) (by omega) (fun _ => hb) (fun h => by omega)
  | skip hfill hb => exact hi.of_eq rfl rfl rfl
  | hdr1 hfill hb =>
    rw [← hfill]
    exact hi.storeNext (by rw [hfill]; rfl) (by omega) (fun h => by omega) (fun _ => hb)
  | resync hfill hb => exact BufferInv.inv_of_zero (hi.bufferInv.of_eq rfl rfl) rfl
  | payload hlo hhi =>
    exact hi.storeNext (fillCount_add_one_toNat hhi) hhi (fun h => by omega) (fun h => by omega)
  | frame f hfill hf h0 h1 =>
    exact BufferInv.inv_of_zero ((hi.bufferInv.store (k := 42) (by decide) b).of_eq rfl rfl) rfl
  | badHeader lo hi' hfill hlo hhi hbad => exact absurd (hi.storedHeader hfill hlo hhi) hbad

/-! ### The clock edge -/

/-- An edge that delivers a byte is `FEED` on it (R26, R90). -/
theorem step_eq_feed (h : edgeAction (nextEdge s) = .deliver b) : step s = exec (.feed b) (afterEdge s) := by
  rw [step_of_deliver h, exec_feed_eq_decoded]

/-- The three kinds of edge keep the invariant. -/
theorem step_keeps_inv (hi : Inv s) (h : step s = .next t) : Inv t := by
  cases he : edgeAction (nextEdge s) with
  | create v vb =>
    rw [step_of_create he] at h
    cases h
    exact BufferInv.inv_of_zero (hi.bufferInv.of_eq rfl rfl) rfl
  | deliver b =>
    rw [step_eq_feed he] at h
    exact (feedStep_of_exec h).2.keeps_inv (hi.of_eq rfl rfl rfl)
  | idle =>
    rw [step_of_idle he] at h
    cases h
    exact hi.of_eq rfl rfl rfl

/-! ### A session does not stop -/

/-- With the 42 cells written that the invariant promises, the last byte makes the buffer hold a frame with its header. -/
theorem Inv.holdsFrame_lastStored (hi : Inv s) (h42 : s.fillCount.toNat = 42) (b : Byte) :
    ∃ f, HoldsFrame (lastStored b s) f ∧ f 0 = 0x02 ∧ f 1 = 0x05 := by
  have hbut : HoldsFrameBut s (fun k => (readCell s.buffer k).getD 0x00) := by
    intro k hk
    obtain ⟨v, hv⟩ := Option.isSome_iff_exists.mp (hi.written k (by omega))
    simp [hv]
  refine ⟨_, holdsFrame_store_last hbut, ?_, ?_⟩
  · simp [hi.headerLo (by omega)]
  · simp [hi.headerHi (by omega)]

/-- Every byte has a case of a step. -/
theorem Inv.exists_feedStep (hi : Inv s) (b : Byte) : ∃ t, FeedStep b s t := by
  rcases exists_feedStep_or_last s b with h | h42
  · exact h
  · obtain ⟨f, hf, h0, h1⟩ := hi.holdsFrame_lastStored h42 b
    exact ⟨_, .frame f h42 hf h0 h1⟩

/-- A session that is not specified refuses every byte (R147, R73). -/
theorem exec_feed_refused (hs : ¬ Specified s) (b : Byte) : ∃ r, exec (.feed b) s = .refused r := by
  cases hv : s.variant with
  | legacy => exact ⟨_, inSession_legacy hv _⟩
  | reserved => exact ⟨_, inSession_reserved hv _⟩
  | revisionA | revisionB => exact absurd (specified_of_variant_eq hv rfl) hs

theorem Inv.exec_feed (hi : Inv s) (hs : Specified s) (b : Byte) : ∃ t, exec (.feed b) s = .next t ∧ FeedStep b s t := by
  obtain ⟨t, ht⟩ := hi.exists_feedStep b
  exact ⟨t, ht.exec_feed hs, ht⟩

theorem Inv.step_ne_fault (hi : Inv s) (r : Fault) : step s ≠ .fault r := by
  cases he : edgeAction (nextEdge s) with
  | create v vb => simp [step_of_create he]
  | idle => simp [step_of_idle he]
  | deliver b =>
    rw [step_eq_feed he]
    have hi' : Inv (afterEdge s) := hi.of_eq rfl rfl rfl
    by_cases hs : Specified (afterEdge s)
    · obtain ⟨t, ht, _⟩ := hi'.exec_feed hs b
      simp [ht]
    · obtain ⟨q, hq⟩ := exec_feed_refused hs b
      simp [hq]

theorem Inv.step_answers (hi : Inv s) (hs : Specified s) : ∃ t, step s = .next t := by
  cases he : edgeAction (nextEdge s) with
  | create v vb => exact ⟨_, step_of_create he⟩
  | idle => exact ⟨_, step_of_idle he⟩
  | deliver b =>
    have hi' : Inv (afterEdge s) := hi.of_eq rfl rfl rfl
    obtain ⟨t, ht, _⟩ := hi'.exec_feed (s := afterEdge s) hs b
    exact ⟨t, (step_eq_feed he).trans ht⟩

end Invariant

/-- Settles O49: no cell holds a value and the parameters are this hardware's. -/
theorem resetMeetsTheInvariant : Obligations.ResetMeetsTheInvariant := inv_reset

/-- Settles O50: by the kind of edge, and for a delivered byte by the cases of a step. -/
theorem everyStepKeepsTheInvariant : Obligations.EveryStepKeepsTheInvariant := fun _ _ hi h => step_keeps_inv hi h

/-- Settles O51: an edge is no step, or it is `FEED` on a byte, which has a case or is refused. -/
theorem sessionsNeverStop : Obligations.SessionsNeverStop := fun _ hi => ⟨hi.step_ne_fault, hi.step_answers⟩

/-- Settles O12: the byte has a case of a step, and every case shows what is claimed. -/
theorem feedCompletesAndMovesFillCount : Obligations.FeedCompletesAndMovesFillCount := by
  intro s b hi hs
  obtain ⟨t, ht, hstep⟩ := hi.exec_feed hs b
  exact ⟨t, ht, hstep.acknowledged.1, hstep.acknowledged.2, hstep.fillCount_eq⟩

/-- Settles O52: the invariant excludes the two guarded cases of a step, and each other case shows what is claimed. -/
theorem guardsAreUnreachable : Obligations.GuardsAreUnreachable := by
  intro s t b hi h
  cases (feedStep_of_exec h).2 with
  | overrun hfill => exact absurd hi.fillLe (by omega)
  | badHeader lo hi' hfill hlo hhi hbad => exact absurd (hi.storedHeader hfill hlo hhi) hbad
  | frame f hfill hf h0 h1 => exact ⟨by simp [completed, frameOutput], rfl, fun _ => rfl, by simp [completed, frameOutput]⟩
  | resync hfill hb => exact ⟨by simp [discarded, stepOutput], rfl, fun h => by omega, fun _ => hfill⟩
  | hdr0 hfill hb | hdr1 hfill hb =>
    exact ⟨by simp [stepOutput], rfl, fun h => by omega, by simp [stepOutput]⟩
  | payload hlo hhi => exact ⟨by simp [stepOutput], rfl, fun h => by omega, by simp [stepOutput]⟩
  | skip hfill hb => exact ⟨by simp [discarded, stepOutput], rfl, fun h => by omega, by simp [discarded, stepOutput]⟩

end Sys2Proof.Machine

/-! PROOFS. Properties of a whole step (spec/43_pen_state.md sections 4 and 5, 60_exceptions.md section 2, 20_memory.md section 4): when it
emits an event, which flags it raises, what it does to the pen, and the coordinates of its event. -/

namespace Sys2Proof.Machine

section WholeStep

variable {s t : State} {b : Byte} {f : Nat → Byte}

/-! ### The three ways a decoding can go (R141) -/

/-- What `DECODE` can decide: the policy rejects a mismatch; or no slot is eligible; or a slot is reported. The last two go with a
mismatch only where the policy tolerates it. -/
inductive Decision (v : Variant) (reject : Bool) (f : Nat → Byte) (p : Bool) : Decoded → Prop
  | rejected (e : ChecksumValues) (hpol : reject = true) :
      Decision v reject f p { mismatch := some e, noActiveContact := false, event := none, penDown := p }
  | noSlot (m : Option ChecksumValues) (hpol : m.isSome = true → reject = false) :
      Decision v reject f p { mismatch := m, noActiveContact := true, event := none, penDown := p }
  | slot (m : Option ChecksumValues) (hpol : m.isSome = true → reject = false) (i : Nat) (hi : i ≤ 5) :
      Decision v reject f p (slotDecision v m f i p)

theorem decision_of_decodeFrame (v : Variant) (c : Byte) (reject : Bool) {n : Nat} (f : Nat → Byte) (p : Bool) (hn : 2 ≤ n) :
    Decision v reject f p (decodeFrame v c reject n f p) := by
  by_cases hc : c ≠ f 42 ∧ reject = true
  · rw [decodeFrame_rejected hn hc, mismatchOf, if_neg hc.1]
    exact .rejected _ hc.2
  · have hpol : (mismatchOf c (f 42)).isSome = true → reject = false := by
      intro hm
      have hne : c ≠ f 42 := fun he => by simp [mismatchOf, he] at hm
      exact Bool.eq_false_iff.mpr fun hr => hc ⟨hne, hr⟩
    cases hfind : [0, 1, 2, 3, 4, 5].find? (fun i => f (6 + 6 * i) == 0x00) with
    | none =>
      rw [decodeFrame_noSlot hn hc hfind]
      exact .noSlot _ hpol
    | some i =>
      have hi : i ≤ 5 := by
        have hmem := List.mem_of_find?_eq_some hfind
        simp only [List.mem_cons, List.not_mem_nil, or_false] at hmem
        omega
      rw [decodeFrame_slot hn hc hfind]
      exact .slot _ hpol i hi

theorem decision_of_frame (hs : Specified s) (f : Nat → Byte) :
    Decision s.variant (checksumRejects s) f s.penDown (decodeFor s 43 f) := by
  rw [decodeFor_of_specified hs]
  exact decision_of_decodeFrame _ _ _ _ _ (by decide)

/-! ### Steps that complete no frame, and steps that do -/

/-- A step that delivers no frame emits nothing, keeps the pen and raises one flag at most. -/
structure Undelivered (s t : State) : Prop where
  outcome : t.out.outcome ≠ some .frameReady
  event   : t.out.event = none
  penDown : t.penDown = s.penDown
  diag    : t.out.diag = Diag.clear ∨ t.out.diag = flagged .headerMismatch ∨ t.out.diag = flagged .bufferOverrun

/-- The bits of the records that such a step can leave (R30, R151). -/
theorem Undelivered.flagBits (h : Undelivered s t) :
    t.out.diag.flagBits = 0b0000 ∨ t.out.diag.flagBits = 0b0001 ∨ t.out.diag.flagBits = 0b0010 := by
  rcases h.diag with hd | hd | hd <;> rw [hd] <;> decide

/-- A step delivers a frame or it does not. -/
theorem FeedStep.delivered_or (h : FeedStep b s t) :
    Undelivered s t ∨ ∃ f, HoldsFrame (lastStored b s) f ∧ t = completed b f s := by
  cases h with
  | frame f hfill hf h0 h1 => exact .inr ⟨f, hf, rfl⟩
  | overrun hfill => exact .inl ⟨by simp [discarded, stepOutput], rfl, rfl, .inr (.inr rfl)⟩
  | hdr0 hfill hb | hdr1 hfill hb => exact .inl ⟨by simp [stepOutput], rfl, rfl, .inl rfl⟩
  | payload hlo hhi => exact .inl ⟨by simp [stepOutput], rfl, rfl, .inl rfl⟩
  | skip hfill hb | resync hfill hb => exact .inl ⟨by simp [discarded, stepOutput], rfl, rfl, .inr (.inl rfl)⟩
  | badHeader lo hi hfill hlo hhi hbad => exact .inl ⟨by simp [discarded, stepOutput], rfl, rfl, .inr (.inl rfl)⟩

/-! ### Coordinates (R45, R46) -/

/-- A coordinate whose two bytes are within the 7-bit mask. -/
theorem coord_of_masked {hi lo : Byte} (hhi : hi &&& 0x7F = hi) (hlo : lo &&& 0x7F = lo) :
    (hi ++ lo : Coord).getLsbD 7 = false ∧ (hi ++ lo : Coord).getLsbD 15 = false ∧ (hi ++ lo : Coord).toNat ≤ 0x7F7F := by
  have bit7 : ∀ {v : Byte}, v &&& 0x7F = v → v.getLsbD 7 = false := by
    intro v hv
    rw [← hv, BitVec.getLsbD_and]
    simp
  refine ⟨?_, ?_, ?_⟩
  · rw [BitVec.getLsbD_append]
    exact bit7 hlo
  · rw [BitVec.getLsbD_append]
    exact bit7 hhi
  · have h1 := toNat_lt_of_masked hhi
    have h2 := toNat_lt_of_masked hlo
    rw [BitVec.toNat_append, ← Nat.shiftLeft_add_eq_or_of_lt lo.isLt, Nat.shiftLeft_eq]
    omega

/-- The bytes of a completed frame are within the mask (R189). -/
theorem Inv.frame_masked (hi : Inv s) (hf : HoldsFrame (lastStored b s) f) {k : Nat} (hk : k < 43) : f k &&& s.params.dataMask = f k :=
  (hi.bufferInv.store (k := 42) (by decide) b).masked k (f k) (hf k hk)

/-! ### Which operations move the pen -/

/-- The shape that `HDR0_ACCEPT`, `HDR1_ACCEPT` and `APPEND` share, when it answers. -/
theorem storeIncomplete_eq_next {index : Nat} {n : BitVec 6}
    (h : inSession s (andThen (storeByte index b n (beginStep s)) (fun u => .next (setOutcome .incomplete u))) = .next t) :
    index < 43 ∧ t = storedIncomplete index b n s := by
  obtain ⟨hs, hstore⟩ := inSession_eq_next h
  obtain ⟨u, hu, _⟩ := andThen_eq_next hstore
  have hi := (storeByte_eq_next hu).1
  rw [store_setOutcome_eq hs hi] at h
  cases h
  exact ⟨hi, rfl⟩

theorem lenGuard_penDown {n : BitVec 6} {p : Progress Unit} (h : lenGuard n s = .next p) : p.state.penDown = s.penDown := by
  obtain ⟨_, h⟩ := inSession_eq_next h
  cases h
  split <;> rfl

theorem checksumBy_penDown {op : Byte → Byte → Byte} {p : Progress Unit} (h : checksumBy op s = .next p) :
    p.state.penDown = s.penDown := by
  obtain ⟨_, _, h⟩ := withRead_eq_next (inSession_eq_next h).2
  obtain ⟨_, _, h⟩ := withRead_eq_next h
  split_ifs at h <;> cases h <;> rfl

theorem selectSlot_penDown {p : Progress (Fin 6)} (h : selectSlot s = .next p) : p.state.penDown = s.penDown := by
  obtain ⟨v, _, h⟩ := withRead_eq_next (inSession_eq_next h).2
  cases v <;> cases h <;> rfl

theorem extractRecord_penDown {i : Fin 6} {p : Progress ContactRecord} (h : extractRecord i s = .next p) :
    p.state.penDown = s.penDown := by
  obtain ⟨v, _, h⟩ := withRead_eq_next (inSession_eq_next h).2
  cases h
  rfl

theorem stateOf_penDown {α : Type} {o : Answer (Progress α)} (ho : ∀ p, o = .next p → p.state.penDown = s.penDown)
    (h : stateOf o = .next t) : t.penDown = s.penDown := by
  obtain ⟨p, hp, rfl⟩ := stateOf_eq_next h
  exact ho p hp

/-- The operations that may change the pen (R130, R132, R133, and the composites). -/
theorem moving_of_penDown_ne {i : Instr} (h : exec i s = .next t) (hne : t.penDown ≠ s.penDown) :
    i = .penToggleA ∨ i = .penDownB ∨ i = .penUpB ∨ i = .frameReady ∨ (∃ n, i = .decode n) ∨ (∃ b, i = .appendLast b)
      ∨ (∃ b, i = .feed b) := by
  cases i with
  | penToggleA | penDownB | penUpB | frameReady | decode | appendLast | feed => simp
  | overflow | hdr0Skip | hdr1Resync | frameDrop | penHoldA | penHoldB | emit =>
    rw [inSession_next_eq h] at hne
    exact absurd rfl hne
  | hdr0Accept | hdr1Accept | append =>
    rw [(storeIncomplete_eq_next h).2] at hne
    exact absurd rfl hne
  | lenGuard => exact absurd (stateOf_penDown (fun _ hp => lenGuard_penDown hp) h) hne
  | csumXor | csumAdd => exact absurd (stateOf_penDown (fun _ hp => checksumBy_penDown hp) h) hne
  | select => exact absurd (stateOf_penDown (fun _ hp => selectSlot_penDown hp) h) hne
  | extract => exact absurd (stateOf_penDown (fun _ hp => extractRecord_penDown hp) h) hne
  | legacyRefuse | reservedRefuse => cases h

end WholeStep

/-- Settles O31: only a completed frame has the outcome FrameReady, and of the three decisions only the one with a slot has an event. -/
theorem eventExactlyWhenAFrameIsDecoded : Obligations.EventExactlyWhenAFrameIsDecoded := by
  intro s t b h
  obtain ⟨hs, hstep⟩ := feedStep_of_exec h
  rcases hstep.delivered_or with hu | ⟨f, _, rfl⟩
  · simp [hu.event, hu.outcome]
  · have hd := decision_of_frame hs f
    simp only [completed, State.setOut_out, frameOutput]
    generalize decodeFor s 43 f = d at hd
    cases hd with
    | rejected e hpol => simp [hpol]
    | noSlot m hpol => simp
    | slot m hpol i hi => simpa [slotDecision] using hpol

/-- Settles O32: only a completed frame can raise two flags, and only where the policy tolerates the mismatch. -/
theorem flagSetsOfAStep : Obligations.FlagSetsOfAStep := by
  intro s t b h
  obtain ⟨hs, hstep⟩ := feedStep_of_exec h
  rcases hstep.delivered_or with hu | ⟨f, _, rfl⟩
  · rcases hu.flagBits with h0 | h1 | h2 <;> simp [*]
  · have hd := decision_of_frame hs f
    simp only [completed, State.setOut_out, frameOutput, Diag.flagBits]
    generalize decodeFor s 43 f = d at hd
    cases hd with
    | rejected e hpol => simp
    | noSlot m hpol =>
      cases m with
      | none => simp
      | some e => simp [hpol rfl]
    | slot m hpol i hi => cases m <;> simp [slotDecision]

/-- Settles O33: a step that delivers no frame keeps the pen, a decision without an event too, and the event of a slot carries the pen
that the decision leaves. -/
theorem penChangesOnlyWithAnEvent : Obligations.PenChangesOnlyWithAnEvent := by
  refine ⟨fun s t b h => ?_, fun i s t h hne => moving_of_penDown_ne h hne⟩
  obtain ⟨hs, hstep⟩ := feedStep_of_exec h
  rcases hstep.delivered_or with hu | ⟨f, _, rfl⟩
  · simp [hu.event, hu.penDown]
  · have hd := decision_of_frame hs f
    simp only [completed, State.setOut_out, State.setOut_penDown, State.setPen_penDown, frameOutput]
    generalize decodeFor s 43 f = d at hd
    cases hd with
    | rejected _ _ | noSlot _ _ => simp
    | slot m hpol i hi => simp [slotDecision]

/-- Settles O34: the coordinates of an event are pairs of bytes of the completed frame, which are within the mask. -/
theorem coordinatesHaveFourteenBits : Obligations.CoordinatesHaveFourteenBits := by
  intro s t b e hi hmask h he
  obtain ⟨hs, hstep⟩ := feedStep_of_exec h
  rcases hstep.delivered_or with hu | ⟨f, hf, rfl⟩
  · rw [hu.event] at he
    cases he
  · have hbyte : ∀ {k}, k < 43 → f k &&& 0x7F = f k := fun hk => hmask ▸ hi.frame_masked hf hk
    have hd := decision_of_frame hs f
    simp only [completed, State.setOut_out, frameOutput] at he
    generalize decodeFor s 43 f = d at hd he
    cases hd with
    | rejected _ _ | noSlot _ _ => cases he
    | slot m hpol i hi5 =>
      cases he
      obtain ⟨hx7, hx15, hxle⟩ := coord_of_masked (hbyte (k := 5 + 6 * i + 3) (by omega)) (hbyte (k := 5 + 6 * i + 2) (by omega))
      obtain ⟨hy7, hy15, hyle⟩ := coord_of_masked (hbyte (k := 5 + 6 * i + 5) (by omega)) (hbyte (k := 5 + 6 * i + 4) (by omega))
      exact ⟨hx7, hx15, hy7, hy15, hxle, hyle⟩

end Sys2Proof.Machine

/-! PROOFS. What operations keep (spec/10_state.md section 3, 20_memory.md section 2), and the sessions in which none has a meaning
(spec/44_legacy_variant.md, 30_encoding.md section 4). -/

namespace Sys2Proof.Machine

section Kept

variable {s t : State} {b : Byte} {i : Instr}

/-! ### What no operation changes -/

/-- What every operation keeps: all but the buffer, the position, the pen and the outputs; and one cell of the buffer at most is
written, inside the index space. -/
structure OperationFrame (s t : State) : Prop where
  cfg    : t.cfg = s.cfg
  params : t.params = s.params
  inputs : t.inputs = s.inputs
  buffer : t.buffer = s.buffer ∨ ∃ k v, k < 43 ∧ t.buffer = writeCell s.buffer k v

theorem DecoderFrame.operationFrame (h : DecoderFrame s t) : OperationFrame s t := ⟨h.cfg, h.params, h.inputs, .inl h.buffer⟩

theorem storedIncomplete_operationFrame {index : Nat} (hi : index < 43) (b : Byte) (n : BitVec 6) :
    OperationFrame s (storedIncomplete index b n s) :=
  ⟨rfl, rfl, rfl, .inr ⟨index, _, hi, rfl⟩⟩

theorem exec_appendLast_operationFrame (h : exec (.appendLast b) s = .next t) : OperationFrame s t := by
  rcases exec_appendLast_cases h with ⟨f, _, _, _, rfl⟩ | ⟨lo, hi, _, _, _, rfl⟩
  · exact ⟨rfl, rfl, rfl, .inr ⟨42, _, by decide, rfl⟩⟩
  · exact ⟨rfl, rfl, rfl, .inr ⟨42, _, by decide, rfl⟩⟩

theorem exec_feed_operationFrame (h : exec (.feed b) s = .next t) : OperationFrame s t := by
  obtain ⟨hcfg, hparams, hinputs⟩ := (feedStep_of_exec h).2.keeps
  refine ⟨hcfg, hparams, hinputs, ?_⟩
  rcases execFeed_buffer h with hb | ⟨hlt, hb⟩
  · exact .inl hb
  · exact .inr ⟨_, _, hlt, hb⟩

theorem exec_operationFrame (h : exec i s = .next t) : OperationFrame s t := by
  cases hl : frameLevel i with
  | true =>
    rcases exec_frameLevel_frame hl h with hf | ⟨hf, _⟩
    · exact hf.operationFrame
    · exact ⟨hf.cfg, hf.params, hf.inputs, .inl hf.buffer⟩
  | false =>
    cases i with
    | overflow | hdr0Skip | hdr1Resync =>
      rw [inSession_next_eq h]
      exact ⟨rfl, rfl, rfl, .inl rfl⟩
    | hdr0Accept | hdr1Accept | append =>
      obtain ⟨hi, rfl⟩ := storeIncomplete_eq_next h
      exact storedIncomplete_operationFrame hi _ _
    | appendLast => exact exec_appendLast_operationFrame h
    | feed => exact exec_feed_operationFrame h
    | _ => cases hl

theorem OperationFrame.wf (h : OperationFrame s t) (hwf : s.buffer.wf = true) : t.buffer.wf = true := by
  rcases h.buffer with hb | ⟨k, v, hk, hb⟩ <;> rw [hb]
  · exact hwf
  · exact wf_writeCell v hk hwf

/-! ### Refused sessions -/

theorem stateOf_inSession {α : Type} (k : Answer (Progress α)) : stateOf (inSession s k) = inSession s (stateOf k) := by
  unfold inSession
  cases s.variant <;> rfl

/-- Every operation but the two refusing rows first asks whether the session has a meaning (R147, R73). -/
theorem exec_asks_inSession (hl : i ≠ .legacyRefuse) (hr : i ≠ .reservedRefuse) (s : State) : ∃ k, exec i s = inSession s k := by
  cases i with
  | legacyRefuse => exact absurd rfl hl
  | reservedRefuse => exact absurd rfl hr
  | lenGuard | csumXor | csumAdd | select | extract => exact ⟨_, stateOf_inSession _⟩
  | _ => exact ⟨_, rfl⟩

theorem exec_legacy (hv : s.variant = .legacy) (hr : i ≠ .reservedRefuse) : exec i s = .refused .legacySession := by
  by_cases hl : i = .legacyRefuse
  · rw [hl]
    rfl
  · obtain ⟨k, hk⟩ := exec_asks_inSession hl hr s
    rw [hk, inSession_legacy hv]

theorem exec_reserved (hv : s.variant = .reserved) (hl : i ≠ .legacyRefuse) : exec i s = .refused .reservedConfiguration := by
  by_cases hr : i = .reservedRefuse
  · rw [hr]
    rfl
  · obtain ⟨k, hk⟩ := exec_asks_inSession hl hr s
    rw [hk, inSession_reserved hv]

end Kept

/-- Settles O37: the frame of the frame-level operations, with the position of the two rows of `FRAME_CHECK` named. -/
theorem frameLevelOperationsWriteNoCell : Obligations.FrameLevelOperationsWriteNoCell := by
  intro i s t hi h
  rcases exec_frameLevel_frame hi h with hf | ⟨hf, hrow⟩
  · exact ⟨hf.buffer, .inl hf.fillCount⟩
  · exact ⟨hf.buffer, .inr ⟨hf.fillCount, hrow⟩⟩

/-- Settles O38: the frame of every operation. -/
theorem configurationIsImmutable : Obligations.ConfigurationIsImmutable := fun _ _ _ h =>
  have hf := exec_operationFrame h
  ⟨hf.cfg, hf.params, hf.inputs, hf.wf⟩

/-- Settles O39: a step that delivers a byte is `FEED` on it, which is no refusing row. -/
theorem refusedSessionsRefuseEveryOperation : Obligations.RefusedSessionsRefuseEveryOperation :=
  ⟨fun _ _ hv hi => exec_legacy hv hi, fun _ _ hv hi => exec_reserved hv hi,
    fun s _ he hv => (step_eq_feed he).trans (exec_legacy (s := afterEdge s) hv (by simp)),
    fun s _ he hv => (step_eq_feed he).trans (exec_reserved (s := afterEdge s) hv (by simp))⟩

/-- Settles O40: the two rows read nothing of the state. -/
theorem refusingRowsRefuse : Obligations.RefusingRowsRefuse := fun _ => ⟨rfl, rfl⟩

end Sys2Proof.Machine

/-! PROOFS. `CFG.verbose` and the step (spec/10_state.md section 4, the spec's decision D19): every operation of a step commutes with
setting it otherwise, because no operation reads it. -/

namespace Sys2Proof.Machine

section Verbose

variable {s : State} {v : Bool}

@[simp] theorem withVerbose_variant (v : Bool) (s : State) : (withVerbose v s).variant = s.variant :=
  congrArg variantOfBits (cfgVariantBits_packCfg _ _)

@[simp] theorem withVerbose_verbose (v : Bool) (s : State) : (withVerbose v s).verbose = v := cfgVerboseBit_packCfg _ _

@[simp] theorem withVerbose_checksumRejects (v : Bool) (s : State) : checksumRejects (withVerbose v s) = checksumRejects s := by
  rw [checksumRejects, withVerbose_variant]
  rfl

/-! ### Sequencing -/

section Sequencing

variable {α β γ : Type} {g : State → State}

/-- An operation's answer with the state changed that it leaves. -/
def mapProgress (g : State → State) (o : Answer (Progress α)) : Answer (Progress α) :=
  andThen o (fun p =>
    match p with
    | .ended t => .next (.ended (g t))
    | .going a t => .next (.going a (g t)))

theorem andThen_mapNext {o : Answer State} {k : State → Answer State} (hk : ∀ t, k (g t) = mapNext g (k t)) :
    andThen (mapNext g o) k = mapNext g (andThen o k) := by
  cases o with
  | next t => exact hk t
  | fault r => rfl
  | refused r => rfl

theorem whileGoing_mapProgress {o : Answer (Progress α)} {k : α → State → Answer (Progress β)}
    (hk : ∀ a t, k a (g t) = mapProgress g (k a t)) : whileGoing (mapProgress g o) k = mapProgress g (whileGoing o k) := by
  cases o with
  | next p =>
    cases p with
    | ended t => rfl
    | going a t => exact hk a t
  | fault r => rfl
  | refused r => rfl

theorem stateOf_mapProgress (o : Answer (Progress α)) : stateOf (mapProgress g o) = mapNext g (stateOf o) := by
  cases o with
  | next p => cases p <;> rfl
  | fault r => rfl
  | refused r => rfl

theorem withRead_andThen (r : Except Fault γ) {k : γ → Answer α} {l : γ → Answer β} {φ : α → Answer β}
    (hk : ∀ c, l c = andThen (k c) φ) : withRead r l = andThen (withRead r k) φ := by
  cases r with
  | ok c => exact hk c
  | error e => rfl

theorem inSession_andThen {k : Answer α} {l : Answer β} {φ : α → Answer β} (hk : l = andThen k φ) :
    inSession s l = andThen (inSession s k) φ := by
  subst hk
  unfold inSession
  cases s.variant <;> rfl

/-- Whether the session has a meaning does not depend on `CFG.verbose`. -/
theorem inSession_withVerbose (k : Answer α) : inSession (withVerbose v s) k = inSession s k := by
  rw [inSession, withVerbose_variant]
  rfl

end Sequencing

/-! ### Reads of several cells depend on the buffer alone -/

theorem foldCells_withVerbose (op : Byte → Byte → Byte) (acc : Byte) (ks : List Nat) :
    foldCells op (withVerbose v s) acc ks = foldCells op s acc ks := by
  induction ks generalizing acc with
  | nil => rfl
  | cons k ks ih =>
    rw [foldCells, foldCells, show memRead1 (withVerbose v s) k = memRead1 s k from rfl]
    cases memRead1 s k with
    | error e => rfl
    | ok b => exact ih _

theorem firstActive_withVerbose (l : List (Fin 6)) : firstActive (withVerbose v s) l = firstActive s l := by
  induction l with
  | nil => rfl
  | cons i l ih =>
    rw [firstActive, firstActive, show idField (withVerbose v s) i = idField s i from rfl, ih]

/-! ### The decoder's operations -/

theorem lenGuard_withVerbose (n : BitVec 6) : lenGuard n (withVerbose v s) = mapProgress (withVerbose v) (lenGuard n s) := by
  rw [lenGuard, inSession_withVerbose]
  refine inSession_andThen ?_
  split <;> rfl

theorem settleChecksum_withVerbose (c : Byte) :
    settleChecksum c (withVerbose v s) = mapProgress (withVerbose v) (settleChecksum c s) := by
  refine withRead_andThen (csumField s) fun stored => ?_
  rw [withVerbose_checksumRejects]
  split_ifs <;> rfl

theorem checksumBy_withVerbose (op : Byte → Byte → Byte) :
    checksumBy op (withVerbose v s) = mapProgress (withVerbose v) (checksumBy op s) := by
  rw [checksumBy, inSession_withVerbose,
    show frameChecksum op (withVerbose v s) = frameChecksum op s from foldCells_withVerbose op _ _]
  exact inSession_andThen (withRead_andThen _ settleChecksum_withVerbose)

theorem runChecksum_withVerbose : runChecksum (withVerbose v s) = mapProgress (withVerbose v) (runChecksum s) := by
  rw [runChecksum, runChecksum, withVerbose_variant]
  cases s.variant with
  | revisionA | revisionB => exact checksumBy_withVerbose _
  | legacy | reserved => rfl

theorem selectSlot_withVerbose : selectSlot (withVerbose v s) = mapProgress (withVerbose v) (selectSlot s) := by
  rw [selectSlot, inSession_withVerbose, firstActive_withVerbose]
  refine inSession_andThen (withRead_andThen _ fun sel => ?_)
  cases sel <;> rfl

theorem extractRecord_withVerbose (i : Fin 6) :
    extractRecord i (withVerbose v s) = mapProgress (withVerbose v) (extractRecord i s) := by
  rw [extractRecord, inSession_withVerbose]
  exact inSession_andThen (withRead_andThen (recordOf s i) fun _ => rfl)

theorem runPenOperation_withVerbose (status : Byte) :
    runPenOperation status (withVerbose v s) = mapNext (withVerbose v) (runPenOperation status s) := by
  by_cases hs : Specified s
  · have hg : Specified (withVerbose v s) := by rwa [Specified, withVerbose_variant]
    rw [runPenOperation_eq hs, runPenOperation_eq hg, withVerbose_variant]
    rfl
  · rw [runPenOperation, runPenOperation, withVerbose_variant]
    cases hv : s.variant with
    | legacy | reserved => rfl
    | revisionA | revisionB => exact absurd (specified_of_variant_eq hv rfl) hs

theorem reportRecord_withVerbose (r : ContactRecord) :
    reportRecord r (withVerbose v s) = mapProgress (withVerbose v) (reportRecord r s) := by
  rw [reportRecord, runPenOperation_withVerbose, reportRecord]
  cases runPenOperation r.status s with
  | next t =>
    have hemit : execEmit r.x r.y (withVerbose v t) = mapNext (withVerbose v) (execEmit r.x r.y t) := by
      rw [execEmit, inSession_withVerbose]
      exact inSession_andThen rfl
    show andThen (execEmit r.x r.y (withVerbose v t)) _ = mapProgress _ (andThen (execEmit r.x r.y t) _)
    rw [hemit]
    cases execEmit r.x r.y t <;> rfl
  | fault r => rfl
  | refused r => rfl

theorem decodeSequence_withVerbose (n : BitVec 6) :
    decodeSequence n (withVerbose v s) = mapProgress (withVerbose v) (decodeSequence n s) := by
  rw [decodeSequence, lenGuard_withVerbose]
  refine whileGoing_mapProgress fun _ t1 => ?_
  rw [runChecksum_withVerbose]
  refine whileGoing_mapProgress fun _ t2 => ?_
  rw [selectSlot_withVerbose]
  refine whileGoing_mapProgress fun slot t3 => ?_
  rw [extractRecord_withVerbose]
  exact whileGoing_mapProgress fun r _ => reportRecord_withVerbose r

theorem execDecode_withVerbose (n : BitVec 6) :
    execDecode n (withVerbose v s) = mapNext (withVerbose v) (execDecode n s) := by
  rw [execDecode, inSession_withVerbose]
  refine inSession_andThen ?_
  exact (congrArg stateOf (decodeSequence_withVerbose (s := reportCount (countField s) s) n)).trans (stateOf_mapProgress _)

/-! ### The assembler's operations -/

theorem frameCheck_withVerbose : frameCheck (withVerbose v s) = mapNext (withVerbose v) (frameCheck s) := by
  refine withRead_andThen (headerField s) fun h => ?_
  split_ifs
  · rw [execFrameReady, inSession_withVerbose]
    exact inSession_andThen (execDecode_withVerbose (s := setOutcome .frameReady (s.setFill 0)) 43)
  · rw [execFrameDrop, inSession_withVerbose]
    exact inSession_andThen rfl

/-- The four storing operations go on from the same store. -/
theorem store_withVerbose {index : Nat} {b : Byte} {n : BitVec 6} {k : State → Answer State}
    (hk : ∀ t, k (withVerbose v t) = mapNext (withVerbose v) (k t)) :
    inSession (withVerbose v s) (andThen (storeByte index b n (beginStep (withVerbose v s))) k)
      = mapNext (withVerbose v) (inSession s (andThen (storeByte index b n (beginStep s)) k)) := by
  have hstore : storeByte index b n (beginStep (withVerbose v s)) = mapNext (withVerbose v) (storeByte index b n (beginStep s)) := by
    rw [storeByte, storeByte, memWrite1, memWrite1]
    split <;> rfl
  rw [inSession_withVerbose, hstore, andThen_mapNext hk]
  exact inSession_andThen rfl

theorem exec_feed_withVerbose (b : Byte) :
    exec (.feed b) (withVerbose v s) = mapNext (withVerbose v) (exec (.feed b) s) := by
  show execFeed b (withVerbose v s) = mapNext (withVerbose v) (execFeed b s)
  rw [execFeed, inSession_withVerbose]
  refine inSession_andThen ?_
  rw [show (withVerbose v s).fillCount = s.fillCount from rfl]
  split_ifs
  · exact (inSession_withVerbose _).trans (inSession_andThen rfl)
  · exact store_withVerbose fun _ => rfl
  · exact (inSession_withVerbose _).trans (inSession_andThen rfl)
  · exact store_withVerbose fun _ => rfl
  · exact (inSession_withVerbose _).trans (inSession_andThen rfl)
  · exact store_withVerbose fun _ => rfl
  · exact store_withVerbose fun _ => frameCheck_withVerbose

theorem step_withVerbose (h : (nextEdge s).rst = false) : step (withVerbose v s) = mapNext (withVerbose v) (step s) := by
  have hedge : nextEdge (withVerbose v s) = nextEdge s := rfl
  cases he : edgeAction (nextEdge s) with
  | create vr vb => simp [edgeAction, h] at he; split at he <;> cases he
  | idle =>
    rw [step_of_idle he, step_of_idle (hedge ▸ he)]
    rfl
  | deliver b =>
    rw [step_eq_feed he, step_eq_feed (s := withVerbose v s) he]
    exact exec_feed_withVerbose (s := afterEdge s) b

end Verbose

/-- Settles O47: the step commutes with the bit, and the ports read it for the diagnostic record alone. -/
theorem verboseGatesOnlyTheDiagnosticPort : Obligations.VerboseGatesOnlyTheDiagnosticPort := by
  refine ⟨fun s v h => step_withVerbose h, fun s => ?_, fun s v => ⟨rfl, rfl, rfl, rfl, rfl, rfl, rfl⟩⟩
  simp only [outputPorts, withVerbose_verbose]
  exact ⟨rfl, rfl, rfl, rfl, rfl⟩

end Sys2Proof.Machine

/-! PROOFS. The clock edge and the ports (spec/10_state.md, 60_exceptions.md sections 1 and 7, 70_reset_and_hazards.md section 1): session
creation, idle edges, what an edge does not read, and what the ports show. -/

namespace Sys2Proof.Machine

section Edges

variable {s : State} {e : Edge} {es : List Edge}

/-! ### The next edge of a given input -/

theorem nextEdge_of_cons (h : s.inputs = e :: es) : nextEdge s = e := by
  rw [nextEdge, h]
  rfl

theorem afterEdge_of_cons (h : s.inputs = e :: es) : afterEdge s = s.setInputs es := by
  rw [afterEdge, h]
  rfl

theorem edgeAction_create (h : e.rst = true) : edgeAction e = .create e.cfgVariant e.cfgVerbose := if_pos h

theorem edgeAction_deliver (hr : e.rst = false) (hv : e.rxValid = true) : edgeAction e = .deliver e.rxData := by
  rw [edgeAction, hr, hv]
  rfl

theorem edgeAction_idle (h : e.rst = false ∧ e.rxValid = false) : edgeAction e = .idle := by
  rw [edgeAction, h.1, h.2]
  rfl

/-! ### Idle edges (R162, R200) -/

/-- The state that a number of idle edges leave. -/
def idled (n : Nat) (s : State) : State := (s.setInputs (s.inputs.drop n)).setOut StepOut.quiet

theorem step_of_idle_head (h : ∀ e ∈ s.inputs.take 1, e.rst = false ∧ e.rxValid = false) : step s = .next (idled 1 s) := by
  have hidle : edgeAction (nextEdge s) = .idle := by
    cases hin : s.inputs with
    | nil =>
      rw [nextEdge, hin]
      rfl
    | cons e es =>
      rw [nextEdge_of_cons hin]
      exact edgeAction_idle (h e (by simp [hin]))
  rw [step_of_idle hidle, idled, List.drop_one]
  rfl

theorem idled_idled (m n : Nat) (s : State) : idled n (idled m s) = idled (m + n) s := by
  simp [idled, State.setInputs, State.setOut]

theorem runEdges_idle (n : Nat) (h : ∀ e ∈ s.inputs.take (n + 1), e.rst = false ∧ e.rxValid = false) :
    runEdges (n + 1) s = .next (idled (n + 1) s) := by
  induction n generalizing s with
  | zero =>
    rw [runEdges_succ, step_of_idle_head h]
    rfl
  | succ n ih =>
    have hhead : ∀ e ∈ s.inputs.take 1, e.rst = false ∧ e.rxValid = false :=
      fun e he => h e (List.take_subset_take_left _ (by omega) he)
    have htail : ∀ e ∈ (idled 1 s).inputs.take (n + 1), e.rst = false ∧ e.rxValid = false := by
      intro e he
      rw [idled, State.setOut_inputs, State.setInputs_inputs, List.take_drop, Nat.add_comm 1] at he
      exact h e (List.mem_of_mem_drop he)
    rw [runEdges_succ, step_of_idle_head hhead, andThen_next, ih htail, idled_idled, Nat.add_comm 1]

/-! ### The diagnostic flags as bits (R30, R151) -/

theorem ofBools_getLsbD : ∀ n c b h : Bool,
    (BitVec.ofBool n ++ BitVec.ofBool c ++ BitVec.ofBool b ++ BitVec.ofBool h).getLsbD 0 = h
      ∧ (BitVec.ofBool n ++ BitVec.ofBool c ++ BitVec.ofBool b ++ BitVec.ofBool h).getLsbD 1 = b
      ∧ (BitVec.ofBool n ++ BitVec.ofBool c ++ BitVec.ofBool b ++ BitVec.ofBool h).getLsbD 2 = c
      ∧ (BitVec.ofBool n ++ BitVec.ofBool c ++ BitVec.ofBool b ++ BitVec.ofBool h).getLsbD 3 = n := by
  decide

theorem flagBits_getLsbD (d : Diag) (c : Condition) : d.flagBits.getLsbD (c.code - 1) = d.flag c := by
  obtain ⟨h0, h1, h2, h3⟩ := ofBools_getLsbD d.noActiveContact d.checksumMismatch d.bufferOverrun d.headerMismatch
  cases c
  case headerMismatch => exact h0
  case bufferOverrun => exact h1
  case checksumMismatch => exact h2
  case noActiveContact => exact h3

end Edges

/-- Settles O41: the pins of the next edge ask for a delivery. -/
theorem stepRunsTheDecodedOperation : Obligations.StepRunsTheDecodedOperation := by
  intro s e es hin hrst hvalid
  rw [step_of_deliver (b := e.rxData) (by rw [nextEdge_of_cons hin, edgeAction_deliver hrst hvalid]), afterEdge_of_cons hin]
  rfl

/-- Settles O42: the outputs that an edge with `rst` leaves are the quiet ones. -/
theorem resetEdgeCreatesASession : Obligations.ResetEdgeCreatesASession := by
  intro s e es hin hrst
  have hstep : step s = .next (createSession e.cfgVariant e.cfgVerbose (s.setInputs es)) := by
    rw [step_of_create (by rw [nextEdge_of_cons hin, edgeAction_create hrst]), afterEdge_of_cons hin]
  refine ⟨_, hstep, rfl, rfl, rfl, cfgVariantBits_packCfg _ _, cfgVerboseBit_packCfg _ _, rfl, rfl, rfl, rfl, rfl, rfl, ?_, ?_⟩
  · show (if _ = true then Diag.clear.flagBits else 0) = 0
    split <;> rfl
  · exact Bool.and_false _

/-- Settles O43: the state that idle edges leave differs in the outputs and the edges to come. -/
theorem idleEdgesKeepAllState : Obligations.IdleEdgesKeepAllState :=
  fun _ n h => ⟨_, runEdges_idle n h, rfl, rfl, rfl, rfl, rfl, rfl, rfl⟩

/-- Settles O44: the reset state is written out. -/
theorem resetStateIsAsDecided : Obligations.ResetStateIsAsDecided :=
  ⟨rfl, rfl, fun _ => rfl, rfl, rfl, rfl, rfl, rfl, rfl, rfl, rfl, rfl⟩

/-- Settles O45: the pins ask for the same, and the edge is then off the input. -/
theorem linkFlagsAreNotRead : Obligations.LinkFlagsAreNotRead := fun _ _ _ _ => rfl

/-- Settles O46: a step begins its outputs afresh, whichever the kind of edge. -/
theorem nothingElseSurvivesAStep : Obligations.NothingElseSurvivesAStep := by
  intro s o
  have hedge : nextEdge (s.setOut o) = nextEdge s := rfl
  cases he : edgeAction (nextEdge s) with
  | create v vb =>
    rw [step_of_create he, step_of_create (hedge ▸ he)]
    rfl
  | idle =>
    rw [step_of_idle he, step_of_idle (hedge ▸ he)]
    rfl
  | deliver b =>
    rw [step_eq_feed he, step_eq_feed (s := s.setOut o) he]
    rfl

/-- Settles O48: the flags bit by bit, and each port by its definition. -/
theorem conditionCodesAndPortEncodings : Obligations.ConditionCodesAndPortEncodings := by
  refine ⟨flagBits_getLsbD, rfl, rfl, rfl, rfl, rfl, rfl, rfl, rfl, fun _ => rfl, fun s h => ?_, fun s o h => ?_, fun s h => ?_,
    fun s e h => ?_, fun s h => ?_, fun s h => ?_⟩ <;>
    simp [outputPorts, h]

end Sys2Proof.Machine

/-! PROOFS. Runs of delivered bytes (spec/40_frame_assembler.md section 3): a frame from state 0 is accumulated byte by byte and then
decoded (R100), and spurious bytes before it are hunted through (R101). -/

namespace Sys2Proof.Machine

section Runs

variable {s t u : State} {b : Byte} {f : Nat → Byte} {n : Nat}

/-! ### One delivered byte -/

theorem feedAll_singleton (h : FeedStep b (s.setInputs []) t) (hs : Specified s) : feedAll [b] s = .next t := by
  have hstep : step (s.setInputs [Edge.byte b]) = exec (.feed b) (s.setInputs []) := step_eq_feed (edgeAction_byte b)
  rw [feedAll_cons, hstep, h.exec_feed hs]
  rfl

theorem feedAll_append_next {l m : List Byte} (h : feedAll l s = .next t) : feedAll (l ++ m) s = feedAll m t := by
  rw [feedAll_append, h]
  rfl

/-! ### Accumulating a frame (R100) -/

/-- The session after the first `n` bytes of a frame delivered from state 0. -/
structure Accumulated (s : State) (f : Nat → Byte) (n : Nat) (t : State) : Prop where
  cfg     : t.cfg = s.cfg
  params  : t.params = s.params
  penDown : t.penDown = s.penDown
  fill    : t.fillCount.toNat = n
  cells   : ∀ k, k < n → readCell t.buffer k = some (f k &&& s.params.dataMask)
  out     : 0 < n → t.out = stepOutput .incomplete Diag.clear

theorem accumulated_zero (h0 : s.fillCount = 0) (f : Nat → Byte) : Accumulated s f 0 s :=
  ⟨rfl, rfl, rfl, congrArg BitVec.toNat h0, fun _ h => absurd h (by omega), fun h => absurd h (by omega)⟩

/-- Storing the next byte goes on from `n` bytes to `n + 1`. -/
theorem Accumulated.store (h : Accumulated s f n t) {m : BitVec 6} (hm : m.toNat = n + 1) :
    Accumulated s f (n + 1) (storedIncomplete n (f n) m (t.setInputs [])) := by
  refine ⟨h.cfg, h.params, h.penDown, hm, fun k hk => ?_, fun _ => rfl⟩
  rcases Nat.lt_succ_iff_lt_or_eq.mp hk with hlt | rfl
  · rw [readCell_storedIncomplete_other _ _ (Nat.ne_of_lt hlt)]
    exact h.cells k hlt
  · exact readCell_storedIncomplete_same _ (by rw [State.setInputs_params, h.params])

/-- The next byte of a frame that begins with the signature is stored, whatever it is past the signature. -/
theorem Accumulated.feed_next (h : Accumulated s f n t) (hs : Specified s) (h0 : f 0 = 0x02) (h1 : f 1 = 0x05) (hn : n ≤ 41) :
    ∃ u, feedAll [f n] t = .next u ∧ Accumulated s f (n + 1) u := by
  have hspec : Specified t := specified_of_cfg_eq h.cfg hs
  have hfill : (t.setInputs []).fillCount.toNat = n := h.fill
  rcases Nat.lt_or_ge n 2 with hlt | hge
  · interval_cases n
    · exact ⟨_, feedAll_singleton (.hdr0 hfill h0) hspec, h.store rfl⟩
    · exact ⟨_, feedAll_singleton (.hdr1 hfill h1) hspec, h.store rfl⟩
  · have hstep : FeedStep (f n) (t.setInputs []) (storedIncomplete n (f n) (t.fillCount + 1) (t.setInputs [])) := by
      have := FeedStep.payload (b := f n) (hfill ▸ hge) (hfill ▸ hn)
      rwa [hfill] at this
    have hnext : (t.fillCount + 1).toNat = n + 1 := h.fill ▸ fillCount_add_one_toNat (h.fill ▸ hn)
    exact ⟨_, feedAll_singleton hstep hspec, h.store hnext⟩

theorem feedAll_accumulates (hs : Specified s) (hfill : s.fillCount = 0) (h0 : f 0 = 0x02) (h1 : f 1 = 0x05) (hn : n ≤ 42) :
    ∃ t, feedAll ((List.range n).map f) s = .next t ∧ Accumulated s f n t := by
  induction n with
  | zero => exact ⟨s, rfl, accumulated_zero hfill f⟩
  | succ n ih =>
    obtain ⟨t, ht, hacc⟩ := ih (by omega)
    obtain ⟨u, hu, hacc'⟩ := hacc.feed_next hs h0 h1 (by omega)
    refine ⟨u, ?_, hacc'⟩
    rw [List.range_succ, List.map_append, feedAll_append_next ht]
    exact hu

/-! ### Completing it -/

/-- The decoder reads the configuration, the parameters and the pen of a session. -/
theorem decodeFor_congr (hcfg : t.cfg = s.cfg) (hparams : t.params = s.params) (hpen : t.penDown = s.penDown) (n : Nat)
    (f : Nat → Byte) : decodeFor t n f = decodeFor s n f := by
  rw [decodeFor, decodeFor, State.variant, State.variant, hcfg, hparams, hpen]

/-- The session after a whole frame delivered from state 0. -/
structure FrameDelivered (s : State) (g : Nat → Byte) (t : State) : Prop where
  fill    : t.fillCount = 0
  holds   : HoldsFrame t g
  penDown : t.penDown = (decodeFor s 43 g).penDown
  out     : t.out = frameOutput (decodeFor s 43 g) (g 41)

theorem Accumulated.feed_last {g : Nat → Byte} (h : Accumulated s f 42 t) (hs : Specified s) (hp : s.params.permitted = true)
    (h0 : f 0 = 0x02) (h1 : f 1 = 0x05) (hg : ∀ k, g k = f k &&& s.params.dataMask) :
    ∃ u, feedAll [f 42] t = .next u ∧ FrameDelivered s g u := by
  have hholds : HoldsFrame (lastStored (f 42) (t.setInputs [])) g := by
    intro k hk
    have hbut : HoldsFrameBut (t.setInputs []) g := fun k hk => (h.cells k hk).trans (congrArg some (hg k).symm)
    rw [lastStored, State.setBuffer_buffer, holdsFrame_store_last hbut k hk, State.setInputs_params, h.params, ← hg]
    split
    · next h42 => rw [h42]
    · rfl
  have hg0 : g 0 = 0x02 := by rw [hg, h0, hdr0_masked hp]
  have hg1 : g 1 = 0x05 := by rw [hg, h1, hdr1_masked hp]
  have hdec : decodeFor (t.setInputs []) 43 g = decodeFor s 43 g := decodeFor_congr h.cfg h.params h.penDown 43 g
  refine ⟨_, feedAll_singleton (.frame g h.fill hholds hg0 hg1) (specified_of_cfg_eq h.cfg hs), rfl, hholds, ?_, ?_⟩
  · rw [← hdec]
    rfl
  · rw [← hdec]
    rfl

/-- Framing: 43 bytes that begin with the signature, from state 0. -/
theorem feedAll_frame {g : Nat → Byte} (hs : Specified s) (hp : s.params.permitted = true) (hfill : s.fillCount = 0)
    (h0 : f 0 = 0x02) (h1 : f 1 = 0x05) (hg : ∀ k, g k = f k &&& s.params.dataMask) :
    ∃ t, feedAll ((List.range 43).map f) s = .next t ∧ FrameDelivered s g t := by
  obtain ⟨t, ht, hacc⟩ := feedAll_accumulates (n := 42) hs hfill h0 h1 (by decide)
  obtain ⟨u, hu, hdel⟩ := hacc.feed_last hs hp h0 h1 hg
  refine ⟨u, ?_, hdel⟩
  rw [List.range_succ, List.map_append, feedAll_append_next ht]
  exact hu

/-! ### Hunting (R101) -/

/-- What the hunt for a header changes: the position, the outputs and cell 0. -/
structure Hunted (s t : State) : Prop where
  cfg     : t.cfg = s.cfg
  params  : t.params = s.params
  penDown : t.penDown = s.penDown
  cells   : ∀ a, a ≠ 0 → readCell t.buffer a = readCell s.buffer a

theorem Hunted.refl (s : State) : Hunted s s := ⟨rfl, rfl, rfl, fun _ _ => rfl⟩

theorem Hunted.trans (h : Hunted s t) (h' : Hunted t u) : Hunted s u :=
  ⟨h'.cfg.trans h.cfg, h'.params.trans h.params, h'.penDown.trans h.penDown, fun a ha => (h'.cells a ha).trans (h.cells a ha)⟩

theorem discarded_hunted (o : FrameOutcome) (c : Condition) (m : BitVec 6) (es : List Edge) :
    Hunted s (discarded o c m (s.setInputs es)) :=
  ⟨rfl, rfl, rfl, fun _ _ => rfl⟩

/-- A header once complete is not left. -/
theorem hunt_two (p : List Byte) : hunt 2 p = 2 := by
  induction p with
  | nil => rfl
  | cons b p ih => exact ih

/-- One byte that completes no header. -/
theorem hunt_feed (hs : Specified s) (hle : s.fillCount.toNat ≤ 1) (hne : huntNext s.fillCount.toNat b ≠ 2) :
    ∃ t, feedAll [b] s = .next t ∧ t.fillCount.toNat = huntNext s.fillCount.toNat b ∧ Hunted s t := by
  have hcase : s.fillCount.toNat = 0 ∨ s.fillCount.toNat = 1 := by omega
  rcases hcase with hfill | hfill
  · by_cases hb : b = 0x02
    · refine ⟨_, feedAll_singleton (.hdr0 hfill hb) hs, ?_, rfl, rfl, rfl, fun _ ha => readCell_storedIncomplete_other _ _ ha⟩
      rw [hfill, hb]
      rfl
    · refine ⟨_, feedAll_singleton (.skip hfill hb) hs, ?_, discarded_hunted _ _ _ _⟩
      rw [huntNext, if_pos hfill, if_neg hb]
      exact hfill
  · have hb : b ≠ 0x05 := by
      rintro rfl
      rw [hfill] at hne
      exact hne rfl
    refine ⟨_, feedAll_singleton (.resync hfill hb) hs, ?_, discarded_hunted _ _ _ _⟩
    rw [huntNext, if_neg (by omega), if_pos hfill, if_neg hb]
    rfl

/-- Bytes that complete no header leave the session hunting, where the automaton says. -/
theorem feedAll_hunts {p : List Byte} (hs : Specified s) (hle : s.fillCount.toNat ≤ 1) (hp : hunt s.fillCount.toNat p ≠ 2) :
    ∃ t, feedAll p s = .next t ∧ t.fillCount.toNat = hunt s.fillCount.toNat p ∧ Hunted s t := by
  induction p generalizing s with
  | nil => exact ⟨s, rfl, rfl, .refl s⟩
  | cons b p ih =>
    have hne : huntNext s.fillCount.toNat b ≠ 2 := by
      intro h2
      refine hp ?_
      show hunt (huntNext s.fillCount.toNat b) p = 2
      rw [h2, hunt_two]
    obtain ⟨t, ht, hfill, hst⟩ := hunt_feed hs hle hne
    have hle' : t.fillCount.toNat ≤ 1 := by
      rw [hfill, huntNext] at *
      split_ifs at * <;> omega
    obtain ⟨u, hu, hfill', htu⟩ := ih (specified_of_cfg_eq hst.cfg hs) hle' (by rw [hfill]; exact hp)
    refine ⟨u, ?_, ?_, hst.trans htu⟩
    · rw [← List.singleton_append, feedAll_append_next ht, hu]
    · rw [hfill', hfill]
      rfl

/-- The hunt from state 0. -/
theorem feedAll_hunts_zero {p : List Byte} (hs : Specified s) (hfill : s.fillCount = 0) (hp : hunt 0 p ≠ 2) :
    ∃ t, feedAll p s = .next t ∧ t.fillCount.toNat = hunt 0 p ∧ Hunted s t := by
  have h0 : s.fillCount.toNat = 0 := congrArg BitVec.toNat hfill
  have h := feedAll_hunts (p := p) hs (by omega)
  rw [h0] at h
  exact h hp

/-- In state 1 the signature is lost: 0x02 ends the attempt and 0x05 is then skipped (R95; decision D9). -/
theorem feedAll_header_lost (hs : Specified s) (h1 : s.fillCount.toNat = 1) :
    ∃ t, feedAll [0x02, 0x05] s = .next t ∧ t.fillCount = 0 ∧ t.penDown = s.penDown
      ∧ t.out = stepOutput .incomplete (flagged .headerMismatch) := by
  have hfirst := feedAll_singleton (b := 0x02) (s := s) (.resync h1 (by decide)) hs
  have hsecond := feedAll_singleton (b := 0x05) (s := discarded .resynced .headerMismatch 0 (s.setInputs [])) (.skip rfl (by decide)) hs
  exact ⟨_, (feedAll_append_next hfirst).trans hsecond, rfl, rfl, rfl⟩

/-! ### Lists of bytes as frames -/

theorem map_getD_range (l : List Byte) : (List.range l.length).map (fun k => l.getD k 0x00) = l := by
  apply List.ext_getElem
  · simp
  · intro k h1 h2
    rw [List.getElem_map, List.getElem_range, List.getD_eq_getElem _ _ h2]

theorem feedAll_accumulates_list {l : List Byte} (hs : Specified s) (hfill : s.fillCount = 0) (h0 : l.getD 0 0x00 = 0x02)
    (h1 : l.getD 1 0x00 = 0x05) (hl : l.length ≤ 42) :
    ∃ t, feedAll l s = .next t ∧ Accumulated s (fun k => l.getD k 0x00) l.length t := by
  have h := feedAll_accumulates (f := fun k => l.getD k 0x00) hs hfill h0 h1 hl
  rwa [map_getD_range] at h

theorem feedAll_frame_list {l : List Byte} (hs : Specified s) (hp : s.params.permitted = true) (hfill : s.fillCount = 0)
    (h0 : l.getD 0 0x00 = 0x02) (h1 : l.getD 1 0x00 = 0x05) (hl : l.length = 43) :
    ∃ t, feedAll l s = .next t ∧ FrameDelivered s (fun k => l.getD k 0x00 &&& s.params.dataMask) t := by
  have h := feedAll_frame (f := fun k => l.getD k 0x00) hs hp hfill h0 h1 fun _ => rfl
  rwa [← hl, map_getD_range] at h

end Runs

/-- Settles O53: 42 bytes are accumulated, and the 43rd delivers the frame. -/
theorem framingYieldsOneFrameReady : Obligations.FramingYieldsOneFrameReady := by
  intro s f g hs hp hfill h0 h1 hg
  constructor
  · intro n hn
    obtain ⟨t, ht, hacc⟩ := feedAll_accumulates (n := n + 1) hs hfill h0 h1 (by omega)
    exact ⟨t, ht, hacc.out (by omega), hacc.fill, hacc.penDown⟩
  · obtain ⟨t, ht, hdel⟩ := feedAll_frame hs hp hfill h0 h1 hg
    exact ⟨t, ht, hdel.fill, hdel.holds, hdel.penDown, hdel.out⟩

/-- Settles O54: after the hunt the session is in state 0, where a frame, a false one too, is accumulated, or in state 1, where the
signature is lost. -/
theorem resynchronizationAndItsLimit : Obligations.ResynchronizationAndItsLimit := by
  intro s p hs hperm hfill
  refine ⟨fun hp => ?_, fun hp f h0 h1 => ?_, fun hp => ?_, fun hp r hr => ?_⟩
  · obtain ⟨t, ht, hpos, hst⟩ := feedAll_hunts_zero hs hfill hp
    exact ⟨t, ht, hpos, hst.penDown, hst.cells⟩
  · obtain ⟨t, ht, hpos, hst⟩ := feedAll_hunts_zero (p := p) hs hfill (by simp [hp])
    have ht0 : t.fillCount = 0 := BitVec.eq_of_toNat_eq (hpos.trans hp)
    obtain ⟨u, hu, hdel⟩ := feedAll_frame (specified_of_cfg_eq hst.cfg hs) (by rw [hst.params, hperm]) ht0 h0 h1 fun _ => rfl
    refine ⟨u, (feedAll_append_next ht).trans hu, congrArg StepOut.outcome hdel.out, ?_⟩
    rw [← hst.params]
    exact hdel.holds
  · obtain ⟨t, ht, hpos, hst⟩ := feedAll_hunts_zero (p := p) hs hfill (by simp [hp])
    obtain ⟨u, hu, hfill', hpen, hout⟩ := feedAll_header_lost (specified_of_cfg_eq hst.cfg hs) (hpos.trans hp)
    exact ⟨u, (feedAll_append_next ht).trans hu, hfill', hpen.trans hst.penDown, hout⟩
  · obtain ⟨t, ht, hpos, hst⟩ := feedAll_hunts_zero (p := p) hs hfill (by simp [hp])
    have ht0 : t.fillCount = 0 := BitVec.eq_of_toNat_eq (hpos.trans hp)
    have hst' : Specified t := specified_of_cfg_eq hst.cfg hs
    rw [← hst.params, ← hst.penDown]
    rcases Nat.lt_or_eq_of_le hr with hlt | heq
    · obtain ⟨u, hu, hacc⟩ := feedAll_accumulates_list (l := 0x02 :: 0x05 :: r) hst' ht0 rfl rfl (by simp; omega)
      refine ⟨u, (feedAll_append_next ht).trans hu, fun k hk => hacc.cells k (by simp; omega), fun _ => ⟨?_, hacc.penDown, ?_⟩,
        fun h => by omega⟩
      · rw [hacc.fill, List.length_cons, List.length_cons]
        omega
      · exact hacc.out (by simp)
    · obtain ⟨u, hu, hdel⟩ := feedAll_frame_list (l := 0x02 :: 0x05 :: r) hst' (by rw [hst.params, hperm]) ht0 rfl rfl (by simp [heq])
      exact ⟨u, (feedAll_append_next ht).trans hu, fun k hk => hdel.holds k (by omega), fun h => by omega,
        fun _ => ⟨hdel.fill, congrArg StepOut.outcome hdel.out⟩⟩

end Sys2Proof.Machine

/-! PROOFS. The frame pseudo-forms (spec/30_encoding.md R76): what the 43 bytes of a form are, offset by offset, and what the block stores
and decides when they are delivered from state 0. -/

namespace Sys2Proof.Machine

section Forms

variable {s t : State} {form : FrameForm} {op : Byte → Byte → Byte} {f : Nat → Byte}

/-! ### The bytes of a form -/

theorem payload_length (form : FrameForm) : form.payload.length = 42 := rfl

theorem expandBy_length (op : Byte → Byte → Byte) (form : FrameForm) : (form.expandBy op).length = 43 := rfl

/-- The low byte of a coordinate, as 16 bits. -/
theorem lowByte_setWidth (x : Coord) : (x.setWidth 8).setWidth 16 = x &&& 0xFF := by
  apply BitVec.eq_of_toNat_eq
  have h : x.toNat &&& 0xFF = x.toNat % 256 := Nat.and_two_pow_sub_one_eq_mod x.toNat 8
  simp [h]
  omega

/-- The high byte of a coordinate, as 16 bits. -/
theorem highByte_setWidth (x : Coord) : ((x >>> 8).setWidth 8).setWidth 16 = x >>> 8 := by
  apply BitVec.eq_of_toNat_eq
  have h := x.isLt
  simp [Nat.shiftRight_eq_div_pow]
  omega

/-- A slot's six bytes stand between two parts of the frame, from offset 5 + 6i on (R62). -/
theorem expandBy_around_slot (op : Byte → Byte → Byte) {i : Nat} {slot : SlotForm}
    (h : [form.s0, form.s1, form.s2, form.s3, form.s4, form.s5][i]? = some slot) :
    ∃ pre post, form.expandBy op = pre ++ slot.bytes ++ post ∧ pre.length = 5 + 6 * i := by
  have hi : i < 6 := (List.getElem?_eq_some_iff.mp h).1
  refine ⟨(form.expandBy op).take (5 + 6 * i), (form.expandBy op).drop (11 + 6 * i), ?_, ?_⟩
  · interval_cases i <;> cases h <;> simp [FrameForm.expandBy, FrameForm.payload, SlotForm.bytes]
  · rw [List.length_take, expandBy_length]
    omega

theorem expandBy_slot (op : Byte → Byte → Byte) {i : Nat} {slot : SlotForm}
    (h : [form.s0, form.s1, form.s2, form.s3, form.s4, form.s5][i]? = some slot) {j : Nat} (hj : j < 6) :
    (form.expandBy op).getD (5 + 6 * i + j) 0x00 = slot.bytes.getD j 0x00 := by
  obtain ⟨pre, post, hexp, hlen⟩ := expandBy_around_slot op h
  rw [hexp, ← hlen, List.append_assoc, List.getD_append_right _ _ _ _ (Nat.le_add_right _ _), Nat.add_sub_cancel_left,
    List.getD_append _ _ _ _ hj]

/-- The last byte is `csum` if given and otherwise the fold of the bytes before it. -/
theorem expandBy_last (op : Byte → Byte → Byte) (form : FrameForm) :
    (form.expandBy op).getD 42 0x00 = form.csum.getD (form.payload.foldl op 0x00) := rfl

/-- The fold of the payload is the fold over offsets 0..41 of the frame. -/
theorem payload_foldl (op : Byte → Byte → Byte) (form : FrameForm) :
    (List.range 42).foldl (fun c k => op c ((form.expandBy op).getD k 0x00)) 0x00 = form.payload.foldl op 0x00 := by
  have hbytes : (List.range 42).map (fun k => (form.expandBy op).getD k 0x00) = form.payload :=
    calc (List.range 42).map (fun k => (form.expandBy op).getD k 0x00)
        = (List.range 42).map (fun k => form.payload.getD k 0x00) :=
          List.map_congr_left fun _ hk => List.getD_append _ _ _ _ (List.mem_range.mp hk)
      _ = form.payload := map_getD_range form.payload
  rw [← List.foldl_map (f := fun k => (form.expandBy op).getD k 0x00), hbytes]

theorem expandBy_csum (h : form.csum = none) :
    (List.range 42).foldl (fun c k => op c ((form.expandBy op).getD k 0x00)) 0x00 = (form.expandBy op).getD 42 0x00 := by
  rw [payload_foldl, expandBy_last, h]
  rfl

/-! ### The checksum of the stored bytes -/

/-- A frame whose checksum is right is decoded without a mismatch. -/
theorem decodeFor_no_mismatch (hs : Specified s) (h : sessionChecksum s f = f 42) : (decodeFor s 43 f).mismatch = none := by
  have hpass : ¬(sessionChecksum s f ≠ f 42 ∧ checksumRejects s = true) := fun hc => hc.1 h
  have hm : mismatchOf (sessionChecksum s f) (f 42) = none := if_pos h
  rw [decodeFor_of_specified hs]
  cases hfind : [0, 1, 2, 3, 4, 5].find? (fun i => f (6 + 6 * i) == 0x00) with
  | none => rw [decodeFrame_noSlot (by decide) hpass hfind, hm]
  | some i => rw [decodeFrame_slot (by decide) hpass hfind, hm, slotDecision]

theorem sessionChecksum_revisionA (hv : s.variant = .revisionA) (hp : s.params.permitted = true) :
    sessionChecksum s f = xorOfFrame 0 f := by
  rw [sessionChecksum, hv, ← seed_zero hp]

theorem sessionChecksum_revisionB (hv : s.variant = .revisionB) (hp : s.params.permitted = true) :
    sessionChecksum s f = sumOfFrame 0 f := by
  rw [sessionChecksum, hv, ← seed_zero hp]

/-- The exclusive or of a form under RevisionA: the stored bytes keep it under either mask. -/
theorem decodeFor_expandA (hs : Specified s) (hp : s.params.permitted = true) (hv : s.variant = .revisionA) (hc : form.csum = none) :
    (decodeFor s 43 fun k => form.expandA.getD k 0x00 &&& s.params.dataMask).mismatch = none := by
  have hsum : xorOfFrame 0 (fun k => form.expandA.getD k 0x00) = form.expandA.getD 42 0x00 := expandBy_csum hc
  refine decodeFor_no_mismatch hs ?_
  rw [sessionChecksum_revisionA hv hp, xorOfFrame_masked, hsum]

/-- The sum of a form under RevisionB, where no bit is masked. -/
theorem decodeFor_expandB (hs : Specified s) (hp : s.params.permitted = true) (hv : s.variant = .revisionB) (hc : form.csum = none)
    (hmask : s.params.dataMask = 0xFF) :
    (decodeFor s 43 fun k => form.expandB.getD k 0x00 &&& s.params.dataMask).mismatch = none := by
  have hsum : sumOfFrame 0 (fun k => form.expandB.getD k 0x00) = form.expandB.getD 42 0x00 := expandBy_csum hc
  have hbytes : (fun k => form.expandB.getD k 0x00 &&& s.params.dataMask) = fun k => form.expandB.getD k 0x00 := by
    funext k
    rw [hmask]
    exact BitVec.and_allOnes
  rw [hbytes]
  exact decodeFor_no_mismatch hs ((sessionChecksum_revisionB hv hp).trans hsum)

end Forms

/-- Settles O60: the expansion is read offset by offset, the delivery is that of any frame, and the stored bytes keep the form's checksum
where the mask commutes with the fold or does nothing. -/
theorem frameFormsAreStoredMasked : Obligations.FrameFormsAreStoredMasked := by
  intro s form frame hs hp hfill hform
  obtain ⟨op, rfl⟩ : ∃ op, frame = form.expandBy op := hform.elim (fun h => ⟨_, h⟩) (fun h => ⟨_, h⟩)
  obtain ⟨t, ht, hdel⟩ := feedAll_frame_list hs hp hfill (l := form.expandBy op) rfl rfl rfl
  refine ⟨expandBy_length op form, rfl, rfl, rfl, rfl, rfl, fun i slot h => ?_, rfl, fun c hc => ?_, fun hc he => ?_,
    fun hc he => ?_, t, ht, hdel.fill, congrArg StepOut.outcome hdel.out, hdel.holds, ?_, fun hc he hv => ?_,
    fun hc he hv hmask => ?_⟩
  · have hslot {j : Nat} (hj : j < 6) := expandBy_slot op h hj
    refine ⟨hslot (j := 0) (by decide), hslot (j := 1) (by decide), ?_, ?_, ?_, ?_⟩
    · rw [hslot (j := 2) (by decide)]
      exact lowByte_setWidth slot.x
    · rw [hslot (j := 3) (by decide)]
      exact highByte_setWidth slot.x
    · rw [hslot (j := 4) (by decide)]
      exact lowByte_setWidth slot.y
    · rw [hslot (j := 5) (by decide)]
      exact highByte_setWidth slot.y
  · rw [expandBy_last, hc]
    rfl
  · rw [he]
    exact (expandBy_csum hc).symm
  · rw [he]
    exact (expandBy_csum hc).symm
  · rw [hdel.out]
    rfl
  · rw [hdel.out, he, frameOutput, decodeFor_expandA hs hp hv hc]
    rfl
  · rw [hdel.out, he, frameOutput, decodeFor_expandB hs hp hv hc hmask]
    rfl

end Sys2Proof.Machine
